-- ==== Sys2Proof/Word.lean ====
section
/-! DEFINITION. The value types of 00_scope.md R11: unsigned bit vectors, bit 0 the least significant. -/

namespace Sys2Proof

/-- One byte: a packet byte, a segment pattern, a button mask (10_state.md R15). -/
abbrev Byte := BitVec 8

/-- A 32-bit value: a DisplayValue (10_state.md R16), a request's argument or a response's data. -/
abbrev Word := BitVec 32

/-- A hex digit, which is also a ROM address (20_memory.md R23). -/
abbrev Nibble := BitVec 4

end Sys2Proof
end

