-- ==== Sys2Proof/Config.lean ====
section
/-! DEFINITION. The implementation parameters of 00_scope.md R7 as one record, their constraints
R8, R9, R10, and the one parameter the spec leaves open. The values of the others stand in
Sys2Proof/Machine/Params.lean. -/

namespace Sys2Proof

/-- The two data bytes of a ButtonEvent packet (30_encoding.md R43). -/
inductive DataByte where
  | d1
  | d2
deriving DecidableEq, Repr

/-- One raw button bit: a data byte and one of its bits 3..0 (30_encoding.md R43, R44). -/
structure RawBit where
  byte : DataByte
  bit : Fin 4
deriving DecidableEq, Repr

/-- The eight raw button bits there are (00_scope.md R10). -/
def RawBit.all : List RawBit :=
  [⟨.d1, 0⟩, ⟨.d1, 1⟩, ⟨.d1, 2⟩, ⟨.d1, 3⟩, ⟨.d2, 0⟩, ⟨.d2, 1⟩, ⟨.d2, 2⟩, ⟨.d2, 3⟩]

/-- The parameters of 00_scope.md R7. -/
structure Config where
  opAck : Byte
  opBiocEvent : Byte
  opReset : Byte
  cmdBiocOn : Byte
  cmdLedUsr : Byte
  cmdLedSet : Byte
  ledMaskAll : Byte
  segRom : Vector Byte 16
  btnSrc : Vector RawBit 8
  btnIdle : Byte
deriving DecidableEq, Repr

/-- `DP_BIT`, the decimal point's bit of a segment byte (00_scope.md R7, 30_encoding.md R47). -/
def dpBit : Byte := 0x10

/-- 00_scope.md R8: the three inbound opcodes are pairwise distinct. -/
abbrev Config.OpcodesDistinct (c : Config) : Prop :=
  c.opAck ≠ c.opBiocEvent ∧ c.opAck ≠ c.opReset ∧ c.opBiocEvent ≠ c.opReset

/-- 00_scope.md R9: no ROM entry has the decimal-point bit set. -/
abbrev Config.RomHasNoDp (c : Config) : Prop :=
  ∀ d : Fin 16, c.segRom[d] &&& dpBit = 0

/-- 00_scope.md R10: `BTN_SRC` is a bijection of the eight mask bits onto the eight raw bits. -/
abbrev Config.ButtonsPermuted (c : Config) : Prop :=
  (∀ j k : Fin 8, c.btnSrc[j] = c.btnSrc[k] → j = k) ∧
    ∀ r ∈ RawBit.all, ∃ k : Fin 8, c.btnSrc[k] = r

/-- The constraints R8, R9 and R10 together. -/
abbrev Config.Valid (c : Config) : Prop :=
  c.OpcodesDistinct ∧ c.RomHasNoDp ∧ c.ButtonsPermuted

/-- `BTN_IDLE`, which the spec leaves OPEN (00_scope.md R7, 92_eei_decisions.md D12): a free value,
fixed for the machine, of which nothing is known. Log 6. -/
opaque Config.openBtnIdle : Byte

end Sys2Proof
end

