-- ==== Sys2Proof/Machine/Params.lean ====
section
/-! DEFINITION. The values of the parameters of 00_scope.md R7: this hardware's configuration record.
It stands under Machine/ and not in Config.lean so that a value a test shows wrong can be mended. -/

namespace Sys2Proof

/-- `SEG_ROM`, the contents of 40_display_encoding_rom.md R53, address 0 first. The bit order is the
source's, the glyph shapes are general knowledge (log 8, PRESUMED). -/
def defaultSegRom : Vector Byte 16 :=
  #v[0xE7, 0x06, 0xCB, 0x8F, 0x2E, 0xAD, 0xED, 0x86,
     0xEF, 0xAF, 0xEE, 0x6D, 0xE1, 0x4F, 0xE9, 0xE8]

/-- `BTN_SRC` of 30_encoding.md R44, mask bit 0 first: START, A, B, C, UP, DOWN, LEFT, RIGHT
(log 9, PRESUMED). -/
def defaultBtnSrc : Vector RawBit 8 :=
  #v[⟨.d1, 0⟩, ⟨.d1, 1⟩, ⟨.d1, 2⟩, ⟨.d1, 3⟩, ⟨.d2, 0⟩, ⟨.d2, 2⟩, ⟨.d2, 1⟩, ⟨.d2, 3⟩]

/-- The hardware's configuration: the defaults of the table of 00_scope.md R7 (log 7, PRESUMED for
the opcodes and command bytes), `BTN_IDLE` left open (log 6). -/
def config : Config where
  opAck := 0x40
  opBiocEvent := 0x41
  opReset := 0x46
  cmdBiocOn := 0xC3
  cmdLedUsr := 0xC8
  cmdLedSet := 0xC6
  ledMaskAll := 0x0F
  segRom := defaultSegRom
  btnSrc := defaultBtnSrc
  btnIdle := Config.openBtnIdle

end Sys2Proof
end

