-- ==== Sys2Proof/Syntax.lean ====
section
/-! DEFINITION. The inputs of the block as they are presented, and its operations: one constructor
per row of spec/opcode_table.json. -/

namespace Sys2Proof

/-- One input frame, undecoded. The first three are the events of 00_scope.md R6; the last two carry
the internal operations of the opcode table (formats outbound_packet and rom_read) when one of them
is presented by itself (log 10). -/
inductive Input where
  /-- The reset input, asserted (70_reset_and_hazards.md R91). -/
  | rst
  /-- A host request: the triple of 30_encoding.md R37. -/
  | hostRequest (reqOp : Byte) (reqArg : Word) (reqDstValid : Bool)
  /-- An inbound packet: the triple of 30_encoding.md R41. -/
  | inboundPacket (op d1 d2 : Byte)
  /-- The bytes of one outbound packet, first byte first (30_encoding.md R45, R46). -/
  | outboundPacket (bytes : List Byte)
  /-- A ROM address (20_memory.md R23). -/
  | romRead (address : Nibble)
deriving DecidableEq, Repr

/-- The operations of spec/opcode_table.json, one constructor per row. An operation keeps the fields
it ignores, so that its encoding is one frame and not a choice of frames (log 21). -/
inductive Instr where
  /-- INIT, `req_op` 0x00 (44_device_init.md R70). -/
  | init (reqArg : Word) (reqDstValid : Bool)
  /-- SET_DISPLAY, `req_op` 0x01 (42_flow_control_gate.md R59). -/
  | setDisplay (value : Word) (reqDstValid : Bool)
  /-- GET_BUTTONS, `req_op` 0x02 with `req_dst_valid` = 1 (45_query_and_reserved_ops.md R73). -/
  | getButtons (reqArg : Word)
  /-- GET_BUTTONS_NODST, `req_op` 0x02 with `req_dst_valid` = 0 (45_query_and_reserved_ops.md R74). -/
  | getButtonsNodst (reqArg : Word)
  /-- RSVD0, `req_op` 0x03 (45_query_and_reserved_ops.md R75). -/
  | rsvd0 (reqArg : Word) (reqDstValid : Bool)
  /-- RSVD1, `req_op` 0x04 (45_query_and_reserved_ops.md R75). -/
  | rsvd1 (reqArg : Word) (reqDstValid : Bool)
  /-- RSVD2, `req_op` 0x05 (45_query_and_reserved_ops.md R75). -/
  | rsvd2 (reqArg : Word) (reqDstValid : Bool)
  /-- HOST_UNRECOGNISED, `req_op` in 0x06..0xFF (45_query_and_reserved_ops.md R76). -/
  | hostUnrecognised (reqOp : Byte) (reqArg : Word) (reqDstValid : Bool)
  /-- ACK, `op` = `OP_ACK` (43_packet_decoder.md R64). -/
  | ack (d1 d2 : Byte)
  /-- BIOC_EVENT, `op` = `OP_BIOC_EVENT` (43_packet_decoder.md R65). -/
  | biocEvent (d1 d2 : Byte)
  /-- RESET, `op` = `OP_RESET` (43_packet_decoder.md R66). -/
  | reset (d1 d2 : Byte)
  /-- RX_UNRECOGNISED, any other `op` (43_packet_decoder.md R67). -/
  | rxUnrecognised (op d1 d2 : Byte)
  /-- INIT_SEQ, the outbound init sequence (44_device_init.md R72). -/
  | initSeq
  /-- LED_SET, the outbound LED-set packet with its four segment bytes (30_encoding.md R46). -/
  | ledSet (seg0 seg1 seg2 seg3 : Byte)
  /-- SEGLOOKUP, the ROM read (40_display_encoding_rom.md R54). -/
  | segLookup (digit : Nibble)
  /-- RST, the hardware reset (70_reset_and_hazards.md R91). -/
  | rst
deriving DecidableEq, Repr

end Sys2Proof
end

