-- ==== Sys2Proof/WellFormed.lean ====
section
/-! DEFINITION. Which terms of Instr stand for an encoding. Only the two default rows of the opcode
table have a check: their opcode must be one that no other row takes. -/

namespace Sys2Proof

/-- Well-formedness under a configuration: HOST_UNRECOGNISED has a `req_op` in 0x06..0xFF
(30_encoding.md R37), RX_UNRECOGNISED an `op` that is none of the three opcodes (30_encoding.md R41);
every other operation admits every operand (30_encoding.md R48). -/
def Instr.wellFormedFor (c : Config) : Instr → Bool
  | .hostUnrecognised op _ _ => decide (6 ≤ op.toNat)
  | .rxUnrecognised op _ _ => op != c.opAck && op != c.opBiocEvent && op != c.opReset
  | .init _ _ => true
  | .setDisplay _ _ => true
  | .getButtons _ => true
  | .getButtonsNodst _ => true
  | .rsvd0 _ _ => true
  | .rsvd1 _ _ => true
  | .rsvd2 _ _ => true
  | .ack _ _ => true
  | .biocEvent _ _ => true
  | .reset _ _ => true
  | .initSeq => true
  | .ledSet _ _ _ _ => true
  | .segLookup _ => true
  | .rst => true

/-- Well-formedness on this hardware. -/
def Instr.wellFormed (i : Instr) : Bool := i.wellFormedFor config

end Sys2Proof
end

