-- ==== Sys2Proof/Decode.lean ====
section
/-! DEFINITION. The decoder of input frames, total on every frame, and the encoder. Decoding takes
the configuration as an argument because the inbound opcodes and the command bytes are parameters
(00_scope.md R7). -/

namespace Sys2Proof

/-- Why a frame stands for no operation. -/
inductive DecodeError where
  /-- The bytes are neither the init sequence (30_encoding.md R45) nor an LED-set packet (R46). Only
  an outbound frame presented by itself can be rejected; no event of the spec is (log 12). -/
  | unknownOutboundPacket
deriving DecidableEq, Repr

/-- 30_encoding.md R37: the operation a host request selects by `req_op`; for 0x02 `req_dst_valid`
selects the row (45_query_and_reserved_ops.md R73, R74). -/
def decodeHostRequest (reqOp : Byte) (reqArg : Word) (reqDstValid : Bool) : Instr :=
  match reqOp.toNat with
  | 0 => .init reqArg reqDstValid
  | 1 => .setDisplay reqArg reqDstValid
  | 2 => if reqDstValid then .getButtons reqArg else .getButtonsNodst reqArg
  | 3 => .rsvd0 reqArg reqDstValid
  | 4 => .rsvd1 reqArg reqDstValid
  | 5 => .rsvd2 reqArg reqDstValid
  | _ => .hostUnrecognised reqOp reqArg reqDstValid

/-- 30_encoding.md R41 and 43_packet_decoder.md R63: the variant of an inbound packet, selected by
`op` alone, the tests in the rule's order. -/
def decodeInboundPacket (c : Config) (op d1 d2 : Byte) : Instr :=
  if op = c.opAck then .ack d1 d2
  else if op = c.opBiocEvent then .biocEvent d1 d2
  else if op = c.opReset then .reset d1 d2
  else .rxUnrecognised op d1 d2

/-- 30_encoding.md R45, R46: the two outbound packets, told apart by length and leading bytes. -/
def decodeOutboundPacket (c : Config) : List Byte → Except DecodeError Instr
  | [b0, b1] =>
    if b0 = c.cmdBiocOn ∧ b1 = c.cmdLedUsr then .ok .initSeq else .error .unknownOutboundPacket
  | [b0, b1, seg0, seg1, seg2, seg3] =>
    if b0 = c.cmdLedSet ∧ b1 = c.ledMaskAll then .ok (.ledSet seg0 seg1 seg2 seg3)
    else .error .unknownOutboundPacket
  | _ => .error .unknownOutboundPacket

/-- The decoder under a configuration. -/
def decodeFor (c : Config) : Input → Except DecodeError Instr
  | .rst => .ok .rst
  | .hostRequest reqOp reqArg reqDstValid => .ok (decodeHostRequest reqOp reqArg reqDstValid)
  | .inboundPacket op d1 d2 => .ok (decodeInboundPacket c op d1 d2)
  | .outboundPacket bytes => decodeOutboundPacket c bytes
  | .romRead address => .ok (.segLookup address)

/-- The decoder of this hardware. -/
def decode (inp : Input) : Except DecodeError Instr := decodeFor config inp

/-- The frame of an operation, written from the same rules: R37 for host requests, R41 for inbound
packets, R45 and R46 for outbound packets, R23 for a ROM read, R91 for the reset input. -/
def encodeFor (c : Config) : Instr → Input
  | .init arg dst => .hostRequest 0x00 arg dst
  | .setDisplay value dst => .hostRequest 0x01 value dst
  | .getButtons arg => .hostRequest 0x02 arg true
  | .getButtonsNodst arg => .hostRequest 0x02 arg false
  | .rsvd0 arg dst => .hostRequest 0x03 arg dst
  | .rsvd1 arg dst => .hostRequest 0x04 arg dst
  | .rsvd2 arg dst => .hostRequest 0x05 arg dst
  | .hostUnrecognised op arg dst => .hostRequest op arg dst
  | .ack d1 d2 => .inboundPacket c.opAck d1 d2
  | .biocEvent d1 d2 => .inboundPacket c.opBiocEvent d1 d2
  | .reset d1 d2 => .inboundPacket c.opReset d1 d2
  | .rxUnrecognised op d1 d2 => .inboundPacket op d1 d2
  | .initSeq => .outboundPacket [c.cmdBiocOn, c.cmdLedUsr]
  | .ledSet seg0 seg1 seg2 seg3 =>
    .outboundPacket [c.cmdLedSet, c.ledMaskAll, seg0, seg1, seg2, seg3]
  | .segLookup digit => .romRead digit
  | .rst => .rst

/-- The encoder of this hardware. -/
def encode (i : Instr) : Input := encodeFor config i

/-- The `n` low bytes of a number, the most significant of them first: the order in which the opcode
table writes an outbound packet's pattern (log 11). -/
def bytesOfNat : Nat → Nat → List Byte
  | 0, _ => []
  | n + 1, w => BitVec.ofNat 8 (w >>> (8 * n)) :: bytesOfNat n w

/-- The frame a word of the opcode table stands for, bits above `nbits` zero (log 11).
An 8-bit word names no port: one of the three inbound opcodes is taken as an inbound packet, every
other value as a host request. 1 bit is the reset input, 4 bits a ROM address, 24 bits the whole
inbound triple and 41 bits the whole host triple, each with its first field lowest; 16 and 48 bits
are the outbound packets. -/
def tableInput (nbits w : Nat) : Input :=
  match nbits with
  | 1 => if w % 2 = 1 then .rst else .outboundPacket []
  | 4 => .romRead (BitVec.ofNat 4 w)
  | 8 =>
    let op : Byte := BitVec.ofNat 8 w
    if op = config.opAck ∨ op = config.opBiocEvent ∨ op = config.opReset then
      .inboundPacket op 0 0
    else .hostRequest op 0 false
  | 16 => .outboundPacket (bytesOfNat 2 w)
  | 24 => .inboundPacket (BitVec.ofNat 8 w) (BitVec.ofNat 8 (w >>> 8)) (BitVec.ofNat 8 (w >>> 16))
  | 41 => .hostRequest (BitVec.ofNat 8 w) (BitVec.ofNat 32 (w >>> 8)) (w.testBit 40)
  | 48 => .outboundPacket (bytesOfNat 6 w)
  | _ => .outboundPacket []

/-- The operation the decoder reads from a word of the opcode table; none where it refuses. -/
def decodeTableWord (nbits w : Nat) : Option Instr :=
  match decode (tableInput nbits w) with
  | .ok i => some i
  | .error _ => none

end Sys2Proof
end

