-- ==== Sys2Proof/Machine/State.lean ====
section
/-! DEFINITION. The state of the machine as plain data, the reasons a step can stop, and the state
after reset. -/

namespace Sys2Proof.Machine

/-- The block's whole architectural state (10_state.md R13): these three elements and nothing else.
DESIGN CHOICE, log 25: R13 says 49 bits in all where the widths it gives, 1, 8 and 32, sum to 41; the
model takes the widths. -/
structure DeviceState where
  /-- 10_state.md R14: a command has been sent whose acknowledgment has not arrived. -/
  ackPending : Bool
  /-- 10_state.md R15: RIGHT, LEFT, DOWN, UP, C, B, A, START from bit 7 to bit 0. -/
  buttonMask : Byte
  /-- 10_state.md R16: the last DisplayValue applied, masked to its defined bits. -/
  lastDisplay : Word
deriving DecidableEq, Repr

/-- `rsp_status` (30_encoding.md R38). -/
inductive Status where
  | ok
  | einval
  | eunsupported
deriving DecidableEq, Repr

/-- A host response (30_encoding.md R38): `data` is absent except for GET_BUTTONS with `ok`. -/
structure Response where
  status : Status
  data : Option Word
deriving DecidableEq, Repr

/-- What the most recent event answered (10_state.md R20): nothing, a host response, or the entry of
a ROM read presented by itself (40_display_encoding_rom.md R54, log 10). -/
inductive Reply where
  | none
  | host (r : Response)
  | rom (entry : Byte)
deriving DecidableEq, Repr

/-- The machine: the architectural state, beside it the two outputs of 10_state.md R20 (`tx`, the
reply) and the events the environment has still to present, oldest first (log 1, log 4). -/
structure State where
  dev : DeviceState
  tx : List Byte
  reply : Reply
  inputs : List Input
deriving DecidableEq, Repr

/-- Nothing faults (60_exceptions.md R81), so there is no reason: no constructor, none is ever raised. -/
inductive Fault where
deriving DecidableEq, Repr

/-- Why a step answers with no next state. -/
inductive Refusal where
  /-- An operation whose meaning is not written yet, raised only by an arm of `exec`; safe. No arm
  raises it: every operation has its meaning. -/
  | notModelled (mnemonic : String)
  /-- Raised by `step` on an input frame that stands for no operation, which can only be a bare
  outbound frame that is neither outbound packet (log 12); safe. -/
  | undecodable (e : DecodeError)
deriving DecidableEq, Repr

/-- The reset values of the three elements (10_state.md R22). -/
def DeviceState.resetFor (c : Config) : DeviceState where
  ackPending := false
  buttonMask := c.btnIdle
  lastDisplay := 0x00000000

/-- The machine right after `RST` (10_state.md R22, 70_reset_and_hazards.md R91), nothing presented
yet and nothing answered (log 5). -/
def State.reset : State where
  dev := DeviceState.resetFor config
  tx := []
  reply := .none
  inputs := []

end Sys2Proof.Machine
end

