-- ==== Sys2Proof/Machine/Flags.lean ====
section
/-! DEFINITION. The block's one flag, `ack_pending`, and the codes of the response status. -/

namespace Sys2Proof.Machine

/-- The Flow-Control Gate is open (42_flow_control_gate.md, opening: `ack_pending = 0`). -/
def State.gateOpen (s : State) : Bool := !s.dev.ackPending

/-- `ack_pending <- b` (10_state.md R14). -/
def State.setAckPending (b : Bool) (s : State) : State :=
  { s with dev := { s.dev with ackPending := b } }

/-- The 2-bit `rsp_status` (30_encoding.md R38, 60_exceptions.md R77). -/
def Status.code : Status → BitVec 2
  | .ok => 0
  | .einval => 1
  | .eunsupported => 2

end Sys2Proof.Machine
end

