-- ==== Sys2Proof/Machine/Operands.lean ====
section
/-! DEFINITION. Every operand form: the fields of a DisplayValue and the raw button bits. -/

namespace Sys2Proof.Machine

/-- The defined bits of a DisplayValue (30_encoding.md R39). -/
def displayMask : Word := 0x0F0FFFFF

/-- 41_command_encoder.md R57: undefined bit positions are masked off, not rejected. -/
def maskDisplay (v : Word) : Word := v &&& displayMask

/-- `digit(dv, i) = dv[4i+3:4i]` (30_encoding.md R40, log 14). -/
def digit (dv : Word) (i : Fin 4) : Nibble := dv.extractLsb' (4 * i.val) 4

/-- `active(dv, i) = dv[16+i]` (30_encoding.md R40). -/
def active (dv : Word) (i : Fin 4) : Bool := dv.getLsbD (16 + i.val)

/-- `dp(dv, i) = dv[24+i]` (30_encoding.md R40). -/
def dp (dv : Word) (i : Fin 4) : Bool := dv.getLsbD (24 + i.val)

/-- The value of one raw button bit in a pair of data bytes (30_encoding.md R43). -/
def rawBit (r : RawBit) (d1 d2 : Byte) : Bool :=
  match r.byte with
  | .d1 => d1.getLsbD r.bit.val
  | .d2 => d2.getLsbD r.bit.val

/-- `Remap(d1, d2)` (43_packet_decoder.md R65): mask bit k is the raw bit `BTN_SRC[k]`. -/
def remap (c : Config) (d1 d2 : Byte) : Byte :=
  BitVec.ofFnLE fun k : Fin 8 => rawBit c.btnSrc[k] d1 d2

/-- `zext_32(v)` of a mask (45_query_and_reserved_ops.md R73). -/
def zext32 (v : Byte) : Word := v.setWidth 32

end Sys2Proof.Machine
end

