-- ==== Sys2Proof/Machine/Ops.lean ====
section
/-! DEFINITION. The shared operations: the ROM read, the command encoder, transmission, the writes of
the state elements, responses, raising a condition, and `BuildAndSend` with the gate before it. -/

namespace Sys2Proof.Machine

/-! ### The ROM and the command encoder (pure) -/

/-- `MemRead(a, 1) = SEG_ROM[a]` (20_memory.md R23): every 4-bit address is in range. -/
def memRead (c : Config) (a : Nibble) : Byte := c.segRom[a.toFin]

/-- `SegByte(dv, i)` (41_command_encoder.md R56): an inactive position is blank whatever its digit
and decimal point. -/
def segByte (c : Config) (dv : Word) (i : Fin 4) : Byte :=
  if active dv i then
    if dp dv i then memRead c (digit dv i) ||| dpBit else memRead c (digit dv i)
  else 0x00

/-- The LED-set packet with given segment bytes (30_encoding.md R46). -/
def ledSetPacket (c : Config) (seg0 seg1 seg2 seg3 : Byte) : List Byte :=
  [c.cmdLedSet, c.ledMaskAll, seg0, seg1, seg2, seg3]

/-- `Encode(dv)` (41_command_encoder.md R55). -/
def encodeDisplay (c : Config) (dv : Word) : List Byte :=
  ledSetPacket c (segByte c dv 0) (segByte c dv 1) (segByte c dv 2) (segByte c dv 3)

/-- `InitBytes` (44_device_init.md R72, 30_encoding.md R45). -/
def initBytes (c : Config) : List Byte := [c.cmdBiocOn, c.cmdLedUsr]

/-! ### Writes of the state and the outputs -/

/-- `TX(bytes)` (20_memory.md R33): the transport accepts what is appended (log 18). -/
def State.transmit (bytes : List Byte) (s : State) : State := { s with tx := s.tx ++ bytes }

/-- `button_mask <- m` (10_state.md R15). -/
def State.setButtonMask (m : Byte) (s : State) : State :=
  { s with dev := { s.dev with buttonMask := m } }

/-- `last_display <- dv` (10_state.md R16). -/
def State.setLastDisplay (dv : Word) (s : State) : State :=
  { s with dev := { s.dev with lastDisplay := dv } }

/-- What the event answers (10_state.md R20). -/
def State.answer (r : Reply) (s : State) : State := { s with reply := r }

/-- `respond(status, data)` (00_scope.md R12). -/
def State.respond (status : Status) (data : Option Word) (s : State) : State :=
  s.answer (.host ⟨status, data⟩)

/-- Raising a condition, the block's whole "trap entry" (60_exceptions.md R82): the response carries
the status and no data; no element is written, nothing is sent, nothing is saved (log 24). -/
def State.raise (condition : Status) (s : State) : State := s.respond condition none

/-- `RST` (70_reset_and_hazards.md R91): the values of 10_state.md R22, the trace restarts. The
events that come after the reset stay to be presented (log 13). -/
def State.hardwareReset (c : Config) (s : State) : State where
  dev := DeviceState.resetFor c
  tx := []
  reply := .none
  inputs := s.inputs

/-! ### BuildAndSend and the gate -/

/-- `BuildAndSend(v)` (41_command_encoder.md R58); it does not test the gate itself. -/
def State.buildAndSend (c : Config) (v : Word) (s : State) : State :=
  ((s.transmit (encodeDisplay c (maskDisplay v))).setLastDisplay (maskDisplay v)).setAckPending true

/-- The Flow-Control Gate before `BuildAndSend` (42_flow_control_gate.md R59, R60): with a command
outstanding the request is dropped, nothing is queued. -/
def State.gatedBuildAndSend (c : Config) (v : Word) (s : State) : State :=
  if s.gateOpen then s.buildAndSend c v else s

end Sys2Proof.Machine
end

