-- ==== Sys2Proof/Machine/HostOps.lean ====
section
/-! DEFINITION. The host operations: INIT, SET_DISPLAY, GET_BUTTONS with and without a destination,
the three reserved operations, the unrecognised one. `…Op` is the transition under any configuration,
`exec…` the meaning on this hardware. -/

namespace Sys2Proof.Machine

/-- INIT (44_device_init.md R70): the two bytes are sent ungated, all three elements are written. -/
def initOp (c : Config) (s : State) : State :=
  ((((s.transmit (initBytes c)).setButtonMask c.btnIdle).setLastDisplay 0).setAckPending true).respond
    .ok none

/-- INIT ignores `req_arg` and `req_dst_valid` (44_device_init.md R70). -/
def execInit (_reqArg : Word) (_reqDstValid : Bool) (s : State) : Host.Outcome State Fault Refusal :=
  .next (initOp config s)

/-- SET_DISPLAY (42_flow_control_gate.md R59): `ok` whether sent or dropped. -/
def setDisplayOp (c : Config) (value : Word) (s : State) : State :=
  (s.gatedBuildAndSend c value).respond .ok none

/-- SET_DISPLAY ignores `req_dst_valid` (42_flow_control_gate.md R59). -/
def execSetDisplay (value : Word) (_reqDstValid : Bool) (s : State) :
    Host.Outcome State Fault Refusal :=
  .next (setDisplayOp config value s)

/-- GET_BUTTONS with a destination (45_query_and_reserved_ops.md R73): a snapshot of the mask. -/
def getButtonsOp (s : State) : State := s.respond .ok (some (zext32 s.dev.buttonMask))

/-- GET_BUTTONS ignores `req_arg` (45_query_and_reserved_ops.md R73). -/
def execGetButtons (_reqArg : Word) (s : State) : Host.Outcome State Fault Refusal :=
  .next (getButtonsOp s)

/-- GET_BUTTONS without a destination (45_query_and_reserved_ops.md R74). -/
def getButtonsNodstOp (s : State) : State := s.raise .einval

/-- GET_BUTTONS_NODST ignores `req_arg` (45_query_and_reserved_ops.md R74). -/
def execGetButtonsNodst (_reqArg : Word) (s : State) : Host.Outcome State Fault Refusal :=
  .next (getButtonsNodstOp s)

/-- RSVD0 (45_query_and_reserved_ops.md R75): accepted, no action (log 17). -/
def rsvd0Op (s : State) : State := s.respond .ok none

/-- RSVD0's meaning. -/
def execRsvd0 (_reqArg : Word) (_reqDstValid : Bool) (s : State) :
    Host.Outcome State Fault Refusal :=
  .next (rsvd0Op s)

/-- RSVD1 (45_query_and_reserved_ops.md R75): accepted, no action (log 17). -/
def rsvd1Op (s : State) : State := s.respond .ok none

/-- RSVD1's meaning. -/
def execRsvd1 (_reqArg : Word) (_reqDstValid : Bool) (s : State) :
    Host.Outcome State Fault Refusal :=
  .next (rsvd1Op s)

/-- RSVD2 (45_query_and_reserved_ops.md R75): accepted, no action (log 17). -/
def rsvd2Op (s : State) : State := s.respond .ok none

/-- RSVD2's meaning. -/
def execRsvd2 (_reqArg : Word) (_reqDstValid : Bool) (s : State) :
    Host.Outcome State Fault Refusal :=
  .next (rsvd2Op s)

/-- An unrecognised host operation (45_query_and_reserved_ops.md R76). -/
def hostUnrecognisedOp (s : State) : State := s.raise .eunsupported

/-- HOST_UNRECOGNISED ignores its argument fields (45_query_and_reserved_ops.md R76). -/
def execHostUnrecognised (_reqOp : Byte) (_reqArg : Word) (_reqDstValid : Bool) (s : State) :
    Host.Outcome State Fault Refusal :=
  .next (hostUnrecognisedOp s)

end Sys2Proof.Machine
end

