-- ==== Sys2Proof/Machine/Internal.lean ====
section
/-! DEFINITION. The internal operations of the opcode table presented by themselves (log 10): the two
outbound packets, the ROM read; and the reset input. -/

namespace Sys2Proof.Machine

/-- INIT_SEQ (44_device_init.md R72): the two bytes, sent without consulting the gate and by
themselves without setting `ack_pending`. -/
def initSeqOp (c : Config) (s : State) : State := (s.transmit (initBytes c)).answer .none

/-- INIT_SEQ's meaning. -/
def execInitSeq (s : State) : Host.Outcome State Fault Refusal := .next (initSeqOp config s)

/-- LED_SET (30_encoding.md R46): the six bytes of the packet; the encoder writes no state
(41_command_encoder.md R55), `BuildAndSend` does. -/
def ledSetOp (c : Config) (seg0 seg1 seg2 seg3 : Byte) (s : State) : State :=
  (s.transmit (ledSetPacket c seg0 seg1 seg2 seg3)).answer .none

/-- LED_SET's meaning. -/
def execLedSet (seg0 seg1 seg2 seg3 : Byte) (s : State) : Host.Outcome State Fault Refusal :=
  .next (ledSetOp config seg0 seg1 seg2 seg3 s)

/-- SEGLOOKUP (40_display_encoding_rom.md R54): the entry of the ROM, no state written. -/
def segLookupOp (c : Config) (digit : Nibble) (s : State) : State :=
  s.answer (.rom (memRead c digit))

/-- SEGLOOKUP's meaning. -/
def execSegLookup (digit : Nibble) (s : State) : Host.Outcome State Fault Refusal :=
  .next (segLookupOp config digit s)

/-- RST (70_reset_and_hazards.md R91). -/
def rstOp (c : Config) (s : State) : State := s.hardwareReset c

/-- RST's meaning. -/
def execRst (s : State) : Host.Outcome State Fault Refusal := .next (rstOp config s)

end Sys2Proof.Machine
end

