-- ==== Sys2Proof/Machine/Packets.lean ====
section
/-! DEFINITION. The four arms of the packet decoder: ACK, BIOC_EVENT, RESET, unrecognised. An inbound
packet is no host operation and has no host response (43_packet_decoder.md R63). -/

namespace Sys2Proof.Machine

/-- AckArm (43_packet_decoder.md R64): unconditional, nothing is counted or matched. -/
def ackOp (s : State) : State := (s.setAckPending false).answer .none

/-- ACK ignores its data bytes (43_packet_decoder.md R64). -/
def execAck (_d1 _d2 : Byte) (s : State) : Host.Outcome State Fault Refusal := .next (ackOp s)

/-- ButtonArm (43_packet_decoder.md R65): overwrites the mask unconditionally. -/
def biocEventOp (c : Config) (d1 d2 : Byte) (s : State) : State :=
  (s.setButtonMask (remap c d1 d2)).answer .none

/-- BIOC_EVENT's meaning. -/
def execBiocEvent (d1 d2 : Byte) (s : State) : Host.Outcome State Fault Refusal :=
  .next (biocEventOp config d1 d2 s)

/-- ResetArm (43_packet_decoder.md R66, R68, R69): the two bytes ungated and with no state change,
then the replay of `last_display` through the gate (log 16). -/
def resetOp (c : Config) (s : State) : State :=
  ((s.transmit (initBytes c)).gatedBuildAndSend c s.dev.lastDisplay).answer .none

/-- RESET ignores its data bytes (43_packet_decoder.md R66). -/
def execReset (_d1 _d2 : Byte) (s : State) : Host.Outcome State Fault Refusal :=
  .next (resetOp config s)

/-- An unrecognised packet (43_packet_decoder.md R67): nothing. -/
def rxUnrecognisedOp (s : State) : State := s.answer .none

/-- RX_UNRECOGNISED ignores its bytes (43_packet_decoder.md R67). -/
def execRxUnrecognised (_op _d1 _d2 : Byte) (s : State) : Host.Outcome State Fault Refusal :=
  .next (rxUnrecognisedOp s)

end Sys2Proof.Machine
end

