-- ==== Sys2Proof/Machine/Dispatch.lean ====
section
/-! DEFINITION. One operation on one state: one arm per constructor of Instr. -/

namespace Sys2Proof.Machine

def exec (i : Instr) (s : State) : Host.Outcome State Fault Refusal :=
  match i with
  | .init reqArg reqDstValid => Sys2Proof.Machine.execInit reqArg reqDstValid s
  | .setDisplay value reqDstValid => Sys2Proof.Machine.execSetDisplay value reqDstValid s
  | .getButtons reqArg => Sys2Proof.Machine.execGetButtons reqArg s
  | .getButtonsNodst reqArg => Sys2Proof.Machine.execGetButtonsNodst reqArg s
  | .rsvd0 reqArg reqDstValid => Sys2Proof.Machine.execRsvd0 reqArg reqDstValid s
  | .rsvd1 reqArg reqDstValid => Sys2Proof.Machine.execRsvd1 reqArg reqDstValid s
  | .rsvd2 reqArg reqDstValid => Sys2Proof.Machine.execRsvd2 reqArg reqDstValid s
  | .hostUnrecognised reqOp reqArg reqDstValid => Sys2Proof.Machine.execHostUnrecognised reqOp reqArg reqDstValid s
  | .ack d1 d2 => Sys2Proof.Machine.execAck d1 d2 s
  | .biocEvent d1 d2 => Sys2Proof.Machine.execBiocEvent d1 d2 s
  | .reset d1 d2 => Sys2Proof.Machine.execReset d1 d2 s
  | .rxUnrecognised op d1 d2 => Sys2Proof.Machine.execRxUnrecognised op d1 d2 s
  | .initSeq => Sys2Proof.Machine.execInitSeq s
  | .ledSet seg0 seg1 seg2 seg3 => Sys2Proof.Machine.execLedSet seg0 seg1 seg2 seg3 s
  | .segLookup digit => Sys2Proof.Machine.execSegLookup digit s
  | .rst => Sys2Proof.Machine.execRst s

end Sys2Proof.Machine
end

