-- ==== Sys2Proof/Machine/Step.lean ====
section
/-! DEFINITION. One step: the next event the environment presents, decoded and carried out as one
atomic transition (00_scope.md R6, 20_memory.md R30, R31). -/

namespace Sys2Proof.Machine

/-- One step. With nothing presented the block does nothing (10_state.md R18, log 2). -/
def step (s : State) : Host.Outcome State Fault Refusal :=
  match s.inputs with
  | [] => .next s
  | inp :: rest =>
    match decode inp with
    | .ok i => exec i { s with inputs := rest }
    | .error e => .refused (.undecodable e)

/-- `s` with the frame of a table word presented next, before everything that was to be presented
(log 3, log 11). -/
def State.withFetchWord (s : State) (nbits w : Nat) : State :=
  { s with inputs := tableInput nbits w :: s.inputs }

end Sys2Proof.Machine
end

