-- ==== Sys2Proof/Machine/Transition.lean ====
section
/-! DEFINITION. The transition function of the block under any configuration (00_scope.md R6, R7;
60_exceptions.md R81) and its runs. `exec` is this function at the hardware's own configuration
(Sys2Proof/Laws/Step.lean proves it); claims for all parameter values are about this one. -/

namespace Sys2Proof.Machine

/-- One operation as a total function of the state. -/
def transition (c : Config) : Instr → State → State
  | .init _ _ => initOp c
  | .setDisplay value _ => setDisplayOp c value
  | .getButtons _ => getButtonsOp
  | .getButtonsNodst _ => getButtonsNodstOp
  | .rsvd0 _ _ => rsvd0Op
  | .rsvd1 _ _ => rsvd1Op
  | .rsvd2 _ _ => rsvd2Op
  | .hostUnrecognised _ _ _ => hostUnrecognisedOp
  | .ack _ _ => ackOp
  | .biocEvent d1 d2 => biocEventOp c d1 d2
  | .reset _ _ => resetOp c
  | .rxUnrecognised _ _ _ => rxUnrecognisedOp
  | .initSeq => initSeqOp c
  | .ledSet seg0 seg1 seg2 seg3 => ledSetOp c seg0 seg1 seg2 seg3
  | .segLookup d => segLookupOp c d
  | .rst => rstOp c

/-- A sequence of operations, each seeing the state the one before it left (20_memory.md R31). -/
def runFor (c : Config) : List Instr → State → State
  | [], s => s
  | i :: is, s => runFor c is (transition c i s)

/-- The replies of a sequence of operations, one each, in order. -/
def repliesFor (c : Config) : List Instr → State → List Reply
  | [], _ => []
  | i :: is, s => (transition c i s).reply :: repliesFor c is (transition c i s)

end Sys2Proof.Machine
end

