-- ==== Sys2Proof/Safety.lean ====
section
/-! DEFINITION. The terms in which claims speak: which frames and operations are events of the spec,
the invariants of the state, and the counts the protocol claims use. -/

namespace Sys2Proof

/-- The frames that are events (00_scope.md R6): the reset input, a host request, an inbound packet. -/
def Input.isEvent : Input → Bool
  | .rst => true
  | .hostRequest _ _ _ => true
  | .inboundPacket _ _ _ => true
  | .outboundPacket _ => false
  | .romRead _ => false

/-- The operations that are events; INIT_SEQ, LED_SET and SEGLOOKUP are internal (log 10). -/
def Instr.isEvent : Instr → Bool
  | .init _ _ => true
  | .setDisplay _ _ => true
  | .getButtons _ => true
  | .getButtonsNodst _ => true
  | .rsvd0 _ _ => true
  | .rsvd1 _ _ => true
  | .rsvd2 _ _ => true
  | .hostUnrecognised _ _ _ => true
  | .ack _ _ => true
  | .biocEvent _ _ => true
  | .reset _ _ => true
  | .rxUnrecognised _ _ _ => true
  | .initSeq => false
  | .ledSet _ _ _ _ => false
  | .segLookup _ => false
  | .rst => true

/-- A host operation (30_encoding.md R37). -/
def Instr.isHostOperation : Instr → Bool
  | .init _ _ => true
  | .setDisplay _ _ => true
  | .getButtons _ => true
  | .getButtonsNodst _ => true
  | .rsvd0 _ _ => true
  | .rsvd1 _ _ => true
  | .rsvd2 _ _ => true
  | .hostUnrecognised _ _ _ => true
  | .ack _ _ => false
  | .biocEvent _ _ => false
  | .reset _ _ => false
  | .rxUnrecognised _ _ _ => false
  | .initSeq => false
  | .ledSet _ _ _ _ => false
  | .segLookup _ => false
  | .rst => false

/-- A host operation that writes no state (45_query_and_reserved_ops.md R73 to R76). -/
def Instr.isQuery : Instr → Bool
  | .init _ _ => false
  | .setDisplay _ _ => false
  | .getButtons _ => true
  | .getButtonsNodst _ => true
  | .rsvd0 _ _ => true
  | .rsvd1 _ _ => true
  | .rsvd2 _ _ => true
  | .hostUnrecognised _ _ _ => true
  | .ack _ _ => false
  | .biocEvent _ _ => false
  | .reset _ _ => false
  | .rxUnrecognised _ _ _ => false
  | .initSeq => false
  | .ledSet _ _ _ _ => false
  | .segLookup _ => false
  | .rst => false

/-- An inbound packet (30_encoding.md R41). -/
def Instr.isPacket : Instr → Bool
  | .init _ _ => false
  | .setDisplay _ _ => false
  | .getButtons _ => false
  | .getButtonsNodst _ => false
  | .rsvd0 _ _ => false
  | .rsvd1 _ _ => false
  | .rsvd2 _ _ => false
  | .hostUnrecognised _ _ _ => false
  | .ack _ _ => true
  | .biocEvent _ _ => true
  | .reset _ _ => true
  | .rxUnrecognised _ _ _ => true
  | .initSeq => false
  | .ledSet _ _ _ _ => false
  | .segLookup _ => false
  | .rst => false

/-- An ACK packet. -/
def Instr.isAck : Instr → Bool
  | .ack _ _ => true
  | .init _ _ => false
  | .setDisplay _ _ => false
  | .getButtons _ => false
  | .getButtonsNodst _ => false
  | .rsvd0 _ _ => false
  | .rsvd1 _ _ => false
  | .rsvd2 _ _ => false
  | .hostUnrecognised _ _ _ => false
  | .biocEvent _ _ => false
  | .reset _ _ => false
  | .rxUnrecognised _ _ _ => false
  | .initSeq => false
  | .ledSet _ _ _ _ => false
  | .segLookup _ => false
  | .rst => false

/-- The hardware reset. -/
def Instr.isRst : Instr → Bool
  | .rst => true
  | .init _ _ => false
  | .setDisplay _ _ => false
  | .getButtons _ => false
  | .getButtonsNodst _ => false
  | .rsvd0 _ _ => false
  | .rsvd1 _ _ => false
  | .rsvd2 _ _ => false
  | .hostUnrecognised _ _ _ => false
  | .ack _ _ => false
  | .biocEvent _ _ => false
  | .reset _ _ => false
  | .rxUnrecognised _ _ _ => false
  | .initSeq => false
  | .ledSet _ _ _ _ => false
  | .segLookup _ => false

/-- An event that sends `InitBytes` (44_device_init.md R72): INIT or a RESET packet. -/
def Instr.sendsInitBytes : Instr → Bool
  | .init _ _ => true
  | .reset _ _ => true
  | .setDisplay _ _ => false
  | .getButtons _ => false
  | .getButtonsNodst _ => false
  | .rsvd0 _ _ => false
  | .rsvd1 _ _ => false
  | .rsvd2 _ _ => false
  | .hostUnrecognised _ _ _ => false
  | .ack _ _ => false
  | .biocEvent _ _ => false
  | .rxUnrecognised _ _ _ => false
  | .initSeq => false
  | .ledSet _ _ _ _ => false
  | .segLookup _ => false
  | .rst => false

/-- Whether an operation that finds `ack_pending` as given replaces `last_display` (10_state.md R16):
INIT and `RST` always, a SET_DISPLAY only through an open gate (42_flow_control_gate.md R59, R60). -/
def Instr.replacesDisplay : Instr → Bool → Bool
  | .init _ _, _ => true
  | .setDisplay _ _, pending => !pending
  | .rst, _ => true
  | .getButtons _, _ => false
  | .getButtonsNodst _, _ => false
  | .rsvd0 _ _, _ => false
  | .rsvd1 _ _, _ => false
  | .rsvd2 _ _, _ => false
  | .hostUnrecognised _ _ _, _ => false
  | .ack _ _, _ => false
  | .biocEvent _ _, _ => false
  | .reset _ _, _ => false
  | .rxUnrecognised _ _ _, _ => false
  | .initSeq, _ => false
  | .ledSet _ _ _ _, _ => false
  | .segLookup _, _ => false

/-- The value an operation writes to `button_mask`, if it writes it (10_state.md R15). -/
def Instr.maskWritten (c : Config) : Instr → Option Byte
  | .init _ _ => some c.btnIdle
  | .rst => some c.btnIdle
  | .biocEvent d1 d2 => some (Machine.remap c d1 d2)
  | .setDisplay _ _ => none
  | .getButtons _ => none
  | .getButtonsNodst _ => none
  | .rsvd0 _ _ => none
  | .rsvd1 _ _ => none
  | .rsvd2 _ _ => none
  | .hostUnrecognised _ _ _ => none
  | .ack _ _ => none
  | .reset _ _ => none
  | .rxUnrecognised _ _ _ => none
  | .initSeq => none
  | .ledSet _ _ _ _ => none
  | .segLookup _ => none

/-- The table of 42_flow_control_gate.md R62, a row an event: from `ack_pending` before, `ack_pending`
after and the number of bytes sent. (A bare internal operation, no event, has no row; it is given
the row of an event that does nothing.) -/
def gateTable : Instr → Bool → Bool × Nat
  | .rst, _ => (false, 0)
  | .init _ _, _ => (true, 2)
  | .setDisplay _ _, false => (true, 6)
  | .setDisplay _ _, true => (true, 0)
  | .ack _ _, _ => (false, 0)
  | .reset _ _, false => (true, 8)
  | .reset _ _, true => (true, 2)
  | .getButtons _, pending => (pending, 0)
  | .getButtonsNodst _, pending => (pending, 0)
  | .rsvd0 _ _, pending => (pending, 0)
  | .rsvd1 _ _, pending => (pending, 0)
  | .rsvd2 _ _, pending => (pending, 0)
  | .hostUnrecognised _ _ _, pending => (pending, 0)
  | .biocEvent _ _, pending => (pending, 0)
  | .rxUnrecognised _ _ _, pending => (pending, 0)
  | .initSeq, pending => (pending, 0)
  | .ledSet _ _ _ _, pending => (pending, 0)
  | .segLookup _, pending => (pending, 0)

namespace Machine

/-- Only events of the spec are to be presented. -/
abbrev State.OnlyEvents (s : State) : Prop := ∀ inp ∈ s.inputs, inp.isEvent = true

/-- The undefined bits 31:28 and 23:20 of `last_display` are 0 (10_state.md R16). -/
abbrev State.DisplayMasked (s : State) : Prop := s.dev.lastDisplay &&& 0xF0F00000 = 0

/-- A whole outbound packet (30_encoding.md R45, R46): the init sequence, or the LED-set packet of
some DisplayValue. -/
def IsPacket (c : Config) (p : List Byte) : Prop :=
  p = initBytes c ∨ ∃ dv, p = encodeDisplay c dv

/-- `tx` is a sequence of whole outbound packets (20_memory.md R33, 30_encoding.md R49). -/
def State.WholePackets (c : Config) (s : State) : Prop :=
  ∃ ps : List (List Byte), s.tx = ps.flatten ∧ ∀ p ∈ ps, IsPacket c p

/-- No operation of a sequence replaces `last_display` in the state it finds. -/
def keepsDisplay (c : Config) : List Instr → State → Bool
  | [], _ => true
  | i :: is, s => !i.replacesDisplay s.dev.ackPending && keepsDisplay c is (transition c i s)

/-- How many LED-set packets a sequence of operations sends: an event sends one exactly when it adds
six bytes or more to `tx` (42_flow_control_gate.md R62). -/
def ledSetsSent (c : Config) : List Instr → State → Nat
  | [], _ => 0
  | i :: is, s =>
    (if s.tx.length + 6 ≤ (transition c i s).tx.length then 1 else 0) +
      ledSetsSent c is (transition c i s)

end Machine

end Sys2Proof
end

