-- ==== Sys2Proof/Certificates/Slice0/Obligations.lean ====
section
/-! DEFINITION. The statements about the model. A statement with a configuration `c` holds for every
value of the parameters of 00_scope.md R7 (under the constraint it names); one about `exec`, `step`
or `config` is about this hardware, whose `BTN_IDLE` stays open. -/

open Sys2Proof Sys2Proof.Machine

/-! ### Encoding -/

/-- Decoding the frame of a well-formed operation gives it back, every operand at every value
(30_encoding.md R37, R41, R45, R46; 00_scope.md R8). That an operation keeps the fields it ignores is
the model's choice, log 21, and that an outbound packet or a ROM read is presented by itself log 10. -/
def Obligations.DecodeOfEncodeGivesBackOperation : Prop :=
  ∀ c : Config, c.OpcodesDistinct → ∀ i : Instr, i.wellFormedFor c = true →
    decodeFor c (encodeFor c i) = .ok i

/-- Whatever a frame decodes to is well formed and encodes to that very frame (30_encoding.md R37,
R41, R45, R46 give the formats). That the very frame comes back rests on operations keeping the fields
they ignore, which those rules do not say: the model's choice, log 21. That an outbound packet or a
ROM read is presented by itself is log 10. -/
def Obligations.EncodeOfDecodeGivesBackFrame : Prop :=
  ∀ (c : Config) (inp : Input) (i : Instr), decodeFor c inp = .ok i →
    encodeFor c i = inp ∧ i.wellFormedFor c = true

/-- Each inbound opcode selects its variant and every other value the unrecognised one, with no
order among the tests (30_encoding.md R41, 00_scope.md R8). That a packet is presented whole, as a
triple, is the spec's decision D4 (log 18). -/
def Obligations.InboundClassifierNeedsNoOrder : Prop :=
  ∀ c : Config, c.OpcodesDistinct → ∀ op d1 d2 : Byte,
    (op = c.opAck → decodeFor c (.inboundPacket op d1 d2) = .ok (.ack d1 d2)) ∧
    (op = c.opBiocEvent → decodeFor c (.inboundPacket op d1 d2) = .ok (.biocEvent d1 d2)) ∧
    (op = c.opReset → decodeFor c (.inboundPacket op d1 d2) = .ok (.reset d1 d2)) ∧
    (op ≠ c.opAck → op ≠ c.opBiocEvent → op ≠ c.opReset →
      decodeFor c (.inboundPacket op d1 d2) = .ok (.rxUnrecognised op d1 d2))

/-- The table of 30_encoding.md R37: the operation each `req_op` selects. The numbers are the spec's
decision D2 (log 22). -/
def Obligations.HostRequestSelectsOperation : Prop :=
  ∀ (arg : Word) (dst : Bool),
    decode (.hostRequest 0x00 arg dst) = .ok (.init arg dst) ∧
    decode (.hostRequest 0x01 arg dst) = .ok (.setDisplay arg dst) ∧
    decode (.hostRequest 0x02 arg true) = .ok (.getButtons arg) ∧
    decode (.hostRequest 0x02 arg false) = .ok (.getButtonsNodst arg) ∧
    decode (.hostRequest 0x03 arg dst) = .ok (.rsvd0 arg dst) ∧
    decode (.hostRequest 0x04 arg dst) = .ok (.rsvd1 arg dst) ∧
    decode (.hostRequest 0x05 arg dst) = .ok (.rsvd2 arg dst) ∧
    ∀ op : Byte, 6 ≤ op.toNat →
      decode (.hostRequest op arg dst) = .ok (.hostUnrecognised op arg dst)

/-- Words of the opcode table, written out, and the operations they stand for (opcode_table.json). The
ports, widths and byte order of a bare word are the model's choice, log 11; that the near miss gives
none is log 12; the opcode and command bytes are the spec's defaults from general knowledge (D6, D7,
D8, log 7), the `req_op` numbers its decision D2 (log 22). -/
def Obligations.TableWordsDecode : Prop :=
  decodeTableWord 8 0x00 = some (.init 0 false) ∧
  decodeTableWord 8 0x05 = some (.rsvd2 0 false) ∧
  decodeTableWord 8 0x40 = some (.ack 0 0) ∧
  decodeTableWord 24 0x0D7E41 = some (.biocEvent 0x7E 0x0D) ∧
  decodeTableWord 16 0xC3C8 = some .initSeq ∧
  decodeTableWord 48 0xC60F2E8FCB06 = some (.ledSet 0x2E 0x8F 0xCB 0x06) ∧
  decodeTableWord 48 0xC60E2E8FCB06 = none

/-! ### The step and runs -/

/-- When the next frame decodes to an operation, the step is that operation on the state with the
frame taken off; nothing else is added. That the events to come are a list in State and a step takes
the first of them is the model's choice, log 1; that an event is one atomic transition (00_scope.md
R6, 20_memory.md R30) is the spec's decision D1. -/
def Obligations.StepCarriesOutDecodedFrame : Prop :=
  ∀ (s : State) (inp : Input) (rest : List Input) (i : Instr),
    s.inputs = inp :: rest → decode inp = .ok i → step s = exec i { s with inputs := rest }

/-- With nothing presented the step leaves the state as it is: the model's choice, log 2. -/
def Obligations.StepWithNothingPresentedStaysPut : Prop :=
  ∀ s : State, s.inputs = [] → step s = .next s

/-- Over any sequence of events of the spec the machine never faults, never refuses and never gets
stuck, in every state (60_exceptions.md R81, 30_encoding.md R48, 70_reset_and_hazards.md R100). That
the events are a list in State is the model's choice, log 1; that a step with none left stays put is
log 2. That an `RST` leaves the later events to come is log 13. -/
def Obligations.EventsNeverStopTheMachine : Prop :=
  ∀ (k : Nat) (s : State), s.OnlyEvents →
    ∃ t : State, Host.Core.run Sys2Proof.core k s = .next t ∧ t.OnlyEvents

/-- The one thing a step refuses is a bare outbound frame that is neither outbound packet: the
model's choice, log 12. That the events are a list in State from which a step takes the first is the
model's choice, log 1. -/
def Obligations.OnlyBareOutboundFramesAreRefused : Prop :=
  ∀ (s : State) (r : Refusal), step s = .refused r →
    ∃ (bytes : List Byte) (rest : List Input), s.inputs = .outboundPacket bytes :: rest ∧
      bytes ≠ [config.cmdBiocOn, config.cmdLedUsr] ∧
      (∀ x0 x1 x2 x3 : Byte, bytes ≠ [config.cmdLedSet, config.ledMaskAll, x0, x1, x2, x3]) ∧
      r = .undecodable .unknownOutboundPacket

/-- Running the machine on the frames of a sequence of operations is the run of the transition
function at the hardware's configuration, one step an operation, the later frames left to come. That
the frames are a list in State from which a step takes the first is the model's choice, log 1, and
that the run goes on past an `RST` with the later frames left is log 13; one transition an event, in
some order, is 00_scope.md R6 and 20_memory.md R31. That a bare internal operation can be among the
operations is the model's choice, log 10. -/
def Obligations.RunOfFramesIsRunOfTransitions : Prop :=
  ∀ (is : List Instr) (rest : List Input) (s : State), (∀ i ∈ is, i.wellFormed = true) →
    s.inputs = is.map encode ++ rest →
    Host.Core.run Sys2Proof.core is.length s = .next { runFor config is s with inputs := rest }

/-! ### Invariants and whole-machine rules -/

/-- Every step keeps the undefined bits of `last_display` at 0 (10_state.md R16; the masked store is
the spec's decision D14). That the events are a list in State from which a step takes the first is
the model's choice, log 1, as is that a step with nothing presented stays put, log 2; D14 is log 15.
That a bare internal operation can be among the operations is the model's choice, log 10. -/
def Obligations.StepKeepsUndefinedDisplayBitsZero : Prop :=
  ∀ s t : State, s.DisplayMasked → step s = .next t → t.DisplayMasked

/-- Every step on an event keeps `tx` a sequence of whole outbound packets (20_memory.md R33,
30_encoding.md R49), and leaves only events to come, which are a list in State by the model's
choice, log 1 (after an `RST` too, log 13). That a step with nothing presented stays put is log
2. -/
def Obligations.StepKeepsTxInWholePackets : Prop :=
  ∀ s t : State, s.OnlyEvents → s.WholePackets config → step s = .next t →
    t.WholePackets config ∧ t.OnlyEvents

/-- The state after reset meets the invariants (10_state.md R16, R22; that no event is presented yet
is the model's choice, log 5). The values are the spec's decisions D14 and D15 (logs 15 and 19). -/
def Obligations.ResetMeetsTheInvariants : Prop :=
  State.reset.DisplayMasked ∧ State.reset.WholePackets config ∧ State.reset.OnlyEvents

/-- The only event that opens a closed gate, other than `RST`, is an ACK packet
(42_flow_control_gate.md R62). That the event is the first of a list in State is the model's choice,
log 1. What the RESET arm does is the spec's decision D17 (log 16). `RST` and its values are the
spec's decision D15 (log 19). That a bare internal operation can be among the operations is the
model's choice, log 10. -/
def Obligations.OnlyAckOrRstOpensClosedGate : Prop :=
  ∀ s t : State, step s = .next t → s.dev.ackPending = true → t.dev.ackPending = false →
    ∃ rest : List Input, s.inputs = .rst :: rest ∨
      ∃ d1 d2 : Byte, s.inputs = .inboundPacket config.opAck d1 d2 :: rest

/-- The transition table of 42_flow_control_gate.md R62 for every event in every state, and that
after an ACK a SET_DISPLAY is transmitted. What the RESET arm does is the spec's decision D17 (log
16). `RST` and its values are the spec's decision D15 (log 19). -/
def Obligations.GateTransitionTable : Prop :=
  (∀ (i : Instr) (s : State), i.isEvent = true →
    ∃ t : State, exec i s = .next t ∧
      t.dev.ackPending = (gateTable i s.dev.ackPending).1 ∧
      (i.isRst = true → t.tx = []) ∧
      (i.isRst = false → ∃ bytes : List Byte, t.tx = s.tx ++ bytes ∧
        bytes.length = (gateTable i s.dev.ackPending).2)) ∧
  ∀ (s : State) (d1 d2 : Byte) (v : Word) (d : Bool),
    ∃ t u : State, exec (.ack d1 d2) s = .next t ∧ t.dev.ackPending = false ∧
      exec (.setDisplay v d) t = .next u ∧ u.tx = t.tx ++ encodeDisplay config v

/-- 70_reset_and_hazards.md R95 for every parameter value: from a closed gate, over any events
without an ACK and without `RST`, the gate stays closed, all that is sent is one init sequence for
each INIT or RESET packet, and every SET_DISPLAY is dropped; an ACK opens the gate. That a RESET
packet leaves a closed gate closed and sends only the init sequence (43_packet_decoder.md R69) is
the spec's decision D17 (log 16). That `OK` carries no data is the spec's decision D19 (log 24). -/
def Obligations.LostAckStallsTheDisplay : Prop :=
  ∀ (c : Config) (is : List Instr) (s : State),
    (∀ i ∈ is, i.isEvent = true ∧ i.isAck = false ∧ i.isRst = false) →
    s.dev.ackPending = true →
    (runFor c is s).dev.ackPending = true ∧
    (runFor c is s).tx =
      s.tx ++ (List.replicate (is.countP Instr.sendsInitBytes) (initBytes c)).flatten ∧
    (∀ (v : Word) (d : Bool), transition c (.setDisplay v d) (runFor c is s) =
      { runFor c is s with reply := .host ⟨.ok, none⟩ }) ∧
    ∀ d1 d2 : Byte, (transition c (.ack d1 d2) (runFor c is s)).dev.ackPending = false

/-- 95_test_vectors.md section 4, property 3: an LED-set packet is sent only by an event that finds
the gate open and leaves it closed, so in a run without `RST` the LED-set packets are at most one
more than the ACK packets, and no more than them if the gate was closed at the start. What the RESET
arm does is the spec's decision D17 (log 16). -/
def Obligations.LedSetsAtMostOneMoreThanAcks : Prop :=
  (∀ (c : Config) (i : Instr) (s : State), i.isEvent = true →
    s.tx.length + 6 ≤ (transition c i s).tx.length →
    s.dev.ackPending = false ∧ (transition c i s).dev.ackPending = true) ∧
  ∀ (c : Config) (is : List Instr) (s : State),
    (∀ i ∈ is, i.isEvent = true ∧ i.isRst = false) →
    ledSetsSent c is s ≤ is.countP Instr.isAck + (if s.dev.ackPending then 0 else 1)

/-- DOC's fourth testable property (95_test_vectors.md S4, 43_packet_decoder.md R66): after a
SET_DISPLAY that passed the gate and any operations none of which replaces the display, SET_DISPLAYs
that the gate drops among them (42_flow_control_gate.md R60), a RESET packet that finds the gate
open sends the init sequence and then the very bytes the SET_DISPLAY sent. What the RESET arm does
is the spec's decision D17 (log 16). That the stored value is the masked one is its decision D14
(log 15). That a bare internal operation can be among the operations is the model's choice, log
10. -/
def Obligations.ReplayIsByteIdentical : Prop :=
  ∀ (c : Config) (v : Word) (d : Bool) (is : List Instr) (s : State) (d1 d2 : Byte),
    s.dev.ackPending = false → keepsDisplay c is (transition c (.setDisplay v d) s) = true →
    (runFor c (.setDisplay v d :: is) s).dev.ackPending = false →
    ∃ sent : List Byte, (transition c (.setDisplay v d) s).tx = s.tx ++ sent ∧ sent.length = 6 ∧
      (transition c (.reset d1 d2) (runFor c (.setDisplay v d :: is) s)).tx =
        (runFor c (.setDisplay v d :: is) s).tx ++ initBytes c ++ sent

/-- 95_test_vectors.md section 4, property 4 (10_state.md R15): after any run `button_mask` is what
the last INIT, `RST` or BIOC_EVENT of the run wrote, or what it was if there was none. That the
RESET arm leaves the mask is the spec's decision D17 (log 16), INIT's and `RST`'s value its
decisions D12 and D15 (logs 6 and 19). That a bare internal operation can be among the operations is
the model's choice, log 10. -/
def Obligations.ButtonMaskIsLastWritten : Prop :=
  ∀ (c : Config) (is : List Instr) (s : State),
    (runFor c is s).dev.buttonMask =
      (is.reverse.findSome? (Instr.maskWritten c)).getD s.dev.buttonMask

/-- 95_test_vectors.md section 4, property 5 (60_exceptions.md R86): two states with the same
`button_mask` give the same replies over any sequence of operations, so no host response tells
`ack_pending`, `last_display` or what was sent. That the answer of an operation stands in State,
none after `RST`, is the model's choice, log 5. That a bare internal operation can be among the
operations is the model's choice, log 10. -/
def Obligations.RepliesTellButtonMaskOnly : Prop :=
  ∀ (c : Config) (is : List Instr) (s s' : State), s.dev.buttonMask = s'.dev.buttonMask →
    repliesFor c is s = repliesFor c is s' ∧
      (runFor c is s).dev.buttonMask = (runFor c is s').dev.buttonMask

/-- A host request and a packet presented together may take either order (60_exceptions.md R84,
20_memory.md R31). A host operation that writes nothing gives the same device state and `tx` in both
orders; an ACK and a SET_DISPLAY that meet at a closed gate do not: sent after the ACK, dropped
before it. That either order may be taken is the spec's decision D20 (log 1). -/
def Obligations.SimultaneousEventsInEitherOrder : Prop :=
  (∀ (c : Config) (h p : Instr) (s : State), h.isQuery = true → p.isPacket = true →
    (runFor c [h, p] s).dev = (runFor c [p, h] s).dev ∧
      (runFor c [h, p] s).tx = (runFor c [p, h] s).tx) ∧
  ∀ (c : Config) (v : Word) (d : Bool) (d1 d2 : Byte) (s : State), s.dev.ackPending = true →
    (runFor c [.setDisplay v d, .ack d1 d2] s).tx = s.tx ∧
    (runFor c [.setDisplay v d, .ack d1 d2] s).dev.ackPending = false ∧
    (runFor c [.ack d1 d2, .setDisplay v d] s).tx = s.tx ++ encodeDisplay c v ∧
    (runFor c [.ack d1 d2, .setDisplay v d] s).dev.ackPending = true

/-- 70_reset_and_hazards.md R96: acknowledgments are not matched to commands. One ACK after INIT (two
commands) lets a SET_DISPLAY through, and the second ACK of the INIT opens the gate that this
SET_DISPLAY closed. -/
def Obligations.AcksAreNotMatchedToCommands : Prop :=
  ∀ (c : Config) (v w : Word) (d : Bool) (arg : Word) (d1 d2 : Byte) (s : State),
    (runFor c [.init arg d, .ack d1 d2, .setDisplay v d, .ack d1 d2, .setDisplay w d] s).tx =
      s.tx ++ initBytes c ++ encodeDisplay c v ++ encodeDisplay c w

/-- 70_reset_and_hazards.md R93: a SET_DISPLAY after `RST` and before INIT is sent, then forgotten
by the INIT: after an ACK a RESET packet replays the blank packet. What the RESET arm does is the
spec's decision D17 (log 16). `RST` and its values are the spec's decision D15 (log 19). The blank
value is its decision D14 (log 15). -/
def Obligations.DisplayBeforeInitIsForgotten : Prop :=
  ∀ (c : Config) (v : Word) (d : Bool) (arg : Word) (d1 d2 : Byte) (s : State),
    (runFor c [.rst, .setDisplay v d, .init arg d, .ack d1 d2, .reset d1 d2] s).tx =
      encodeDisplay c v ++ initBytes c ++ initBytes c ++ encodeDisplay c 0

/-! ### Host operations -/

/-- INIT (44_device_init.md R70; the values are the spec's decisions D12, D14). Those are logs 6 and
15; the request number is decision D2 (log 22). That `OK` carries no data is the spec's decision D19
(log 24). -/
def Obligations.InitSendsAndOverwritesAll : Prop :=
  ∀ (s : State) (arg : Word) (dst : Bool),
    decode (.hostRequest 0x00 arg dst) = .ok (.init arg dst) ∧
    exec (.init arg dst) s =
      .next { dev := { ackPending := true, buttonMask := config.btnIdle, lastDisplay := 0x00000000 }
              tx := s.tx ++ [config.cmdBiocOn, config.cmdLedUsr]
              reply := .host ⟨.ok, none⟩
              inputs := s.inputs }

/-- 44_device_init.md R71: INIT forgets what was before, may be repeated, and what a query and a
RESET packet give after it. What the RESET arm does is the spec's decision D17 (log 16). INIT's
values are its decisions D12 and D14 (logs 6 and 15). -/
def Obligations.InitForgetsWhatWasBefore : Prop :=
  ∀ (s s' : State) (arg arg' : Word) (dst dst' : Bool) (d1 d2 : Byte),
    ∃ t t' : State, exec (.init arg dst) s = .next t ∧ exec (.init arg' dst') s' = .next t' ∧
      t.dev = t'.dev ∧
      (∃ u : State, exec (.init arg' dst') t = .next u ∧ u.dev = t.dev ∧
        u.tx = s.tx ++ initBytes config ++ initBytes config) ∧
      (∃ u : State, exec (.getButtons arg) t = .next u ∧
        u.reply = .host ⟨.ok, some (zext32 config.btnIdle)⟩) ∧
      (∃ u : State, exec (.reset d1 d2) t = .next u ∧ u.tx = t.tx ++ initBytes config) ∧
      ∃ u w : State, exec (.ack d1 d2) t = .next u ∧ exec (.reset d1 d2) u = .next w ∧
        w.tx = t.tx ++ initBytes config ++ [config.cmdLedSet, config.ledMaskAll, 0, 0, 0, 0]

/-- SET_DISPLAY (42_flow_control_gate.md R59): sent and recorded with the gate open, nothing with
the gate closed, `OK` in both cases. The masked store is the spec's decision D14 (log 15); the
request number is its decision D2 (log 22). That `OK` carries no data is the spec's decision D19
(log 24). -/
def Obligations.SetDisplayGoesThroughGate : Prop :=
  ∀ (s : State) (value : Word) (dst : Bool),
    decode (.hostRequest 0x01 value dst) = .ok (.setDisplay value dst) ∧
    (s.dev.ackPending = false → exec (.setDisplay value dst) s =
      .next { dev := { ackPending := true
                       buttonMask := s.dev.buttonMask
                       lastDisplay := value &&& 0x0F0FFFFF }
              tx := s.tx ++ encodeDisplay config (value &&& 0x0F0FFFFF)
              reply := .host ⟨.ok, none⟩
              inputs := s.inputs }) ∧
    (s.dev.ackPending = true → exec (.setDisplay value dst) s =
      .next { s with reply := .host ⟨.ok, none⟩ })

/-- 42_flow_control_gate.md R60: a dropped SET_DISPLAY changes nothing, is answered `OK`, is not
sent by a later ACK and not replayed by a later RESET packet; the second of two SET_DISPLAYs, equal
or not, leaves the first one's effect. The bytes a RESET packet sends after the ACK are
43_packet_decoder.md R66 under the spec's decision D17 (log 16). That `OK` carries no data is the
spec's decision D19 (log 24). -/
def Obligations.DroppedDisplayLeavesNoTrace : Prop :=
  (∀ (s : State) (v : Word) (dst : Bool) (d1 d2 : Byte), s.dev.ackPending = true →
    exec (.setDisplay v dst) s = .next { s with reply := .host ⟨.ok, none⟩ } ∧
    ∃ u w : State, exec (.ack d1 d2) { s with reply := .host ⟨.ok, none⟩ } = .next u ∧
      u.tx = s.tx ∧ exec (.reset d1 d2) u = .next w ∧
      w.tx = s.tx ++ initBytes config ++ encodeDisplay config s.dev.lastDisplay) ∧
  ∀ (s : State) (v w : Word) (dst dst' : Bool), s.dev.ackPending = false →
    ∃ t u : State, exec (.setDisplay v dst) s = .next t ∧ exec (.setDisplay w dst') t = .next u ∧
      t.reply = .host ⟨.ok, none⟩ ∧ u.reply = .host ⟨.ok, none⟩ ∧
      t.tx = s.tx ++ encodeDisplay config v ∧ u.tx = t.tx ∧ u.dev = t.dev

/-- GET_BUTTONS with a destination (45_query_and_reserved_ops.md R73): after any run it answers the
mask left by the last INIT, `RST` or BIOC_EVENT in the low byte, zeros above, and changes nothing.
The request number is the spec's decision D2 (log 22); INIT's and `RST`'s value is its decisions D12
and D15 (logs 6 and 19), and that the RESET arm leaves the mask its decision D17 (log 16). That a
bare internal operation can be among the operations is the model's choice, log 10. -/
def Obligations.GetButtonsAnswersSnapshot : Prop :=
  ∀ (is : List Instr) (s₀ : State) (arg : Word),
    decode (.hostRequest 0x02 arg true) = .ok (.getButtons arg) ∧
    ∃ data : Word,
      data.extractLsb' 0 8 =
        (is.reverse.findSome? (Instr.maskWritten config)).getD s₀.dev.buttonMask ∧
      data.extractLsb' 8 24 = 0 ∧
      exec (.getButtons arg) (runFor config is s₀) =
        .next { runFor config is s₀ with reply := .host ⟨.ok, some data⟩ }

/-- `EINVAL` (60_exceptions.md R78, 45_query_and_reserved_ops.md R74): GET_BUTTONS without a
destination raises it, with no data and no change, and nothing else raises it. The request number is
the spec's decision D2 (log 22); no data and no change are its decisions D19 and D3 (log 24). -/
def Obligations.NoDestinationIsTheOnlyEinval : Prop :=
  (∀ (s : State) (arg : Word),
    decode (.hostRequest 0x02 arg false) = .ok (.getButtonsNodst arg) ∧
    exec (.getButtonsNodst arg) s = .next { s with reply := .host ⟨.einval, none⟩ }) ∧
  ∀ (i : Instr) (s t : State) (r : Response), exec i s = .next t → t.reply = .host r →
    r.status = .einval → ∃ arg : Word, i = .getButtonsNodst arg

/-- The reserved operations (45_query_and_reserved_ops.md R75; the status is the spec's decision
D18). D18 is log 17. That `OK` carries no data is the spec's decision D19 (log 24). -/
def Obligations.ReservedOperationsOnlyAnswerOk : Prop :=
  ∀ (s : State) (arg : Word) (dst : Bool),
    exec (.rsvd0 arg dst) s = .next { s with reply := .host ⟨.ok, none⟩ } ∧
    exec (.rsvd1 arg dst) s = .next { s with reply := .host ⟨.ok, none⟩ } ∧
    exec (.rsvd2 arg dst) s = .next { s with reply := .host ⟨.ok, none⟩ }

/-- `EUNSUPPORTED` (45_query_and_reserved_ops.md R76, 60_exceptions.md R79): every `req_op` from 0x06
raises it, with no data and no change, and nothing else raises it. The request numbers are the spec's
decision D2 (log 22); no data and no change are its decisions D19 and D3 (log 24). -/
def Obligations.UnrecognisedRequestIsTheOnlyUnsupported : Prop :=
  (∀ (s : State) (op : Byte) (arg : Word) (dst : Bool), 6 ≤ op.toNat →
    decode (.hostRequest op arg dst) = .ok (.hostUnrecognised op arg dst) ∧
    exec (.hostUnrecognised op arg dst) s = .next { s with reply := .host ⟨.eunsupported, none⟩ }) ∧
  ∀ (i : Instr) (s t : State) (r : Response), exec i s = .next t → t.reply = .host r →
    r.status = .eunsupported → ∃ (op : Byte) (arg : Word) (dst : Bool),
      i = .hostUnrecognised op arg dst

/-- Every host request is answered in its step; the status and the data follow the request alone but
for the mask (30_encoding.md R38; 95_test_vectors.md section 2.8); the status code is never 3. The
status codes and the request numbers are the spec's decisions D3 and D2 (log 22), the data its
decision D19 (log 24). That the request is the first of a list in State is the model's choice, log
1. That a reserved operation answers `OK` is the spec's decision D18 (log 17). -/
def Obligations.HostResponseFollowsRequest : Prop :=
  ∀ (s : State) (op : Byte) (arg : Word) (dst : Bool) (rest : List Input),
    s.inputs = .hostRequest op arg dst :: rest →
    ∃ (t : State) (r : Response), step s = .next t ∧ t.reply = .host r ∧ t.inputs = rest ∧
      (r.status.code = 1 ↔ op = 0x02 ∧ dst = false) ∧
      (r.status.code = 2 ↔ 6 ≤ op.toNat) ∧
      (r.status.code = 0 ↔ ¬(op = 0x02 ∧ dst = false) ∧ ¬6 ≤ op.toNat) ∧
      r.status.code ≠ 3 ∧
      (op = 0x02 → dst = true → r.data = some (zext32 s.dev.buttonMask)) ∧
      (¬(op = 0x02 ∧ dst = true) → r.data = none)

/-- Raising a condition writes no element, sends nothing and gives no data (60_exceptions.md R82), in
whichever operation it happens. That is the spec's decision D3, and no data its decision D19 (log
24). -/
def Obligations.RaisedConditionChangesNothing : Prop :=
  ∀ (i : Instr) (s t : State) (r : Response), exec i s = .next t → t.reply = .host r →
    r.status ≠ .ok → t.dev = s.dev ∧ t.tx = s.tx ∧ t.inputs = s.inputs ∧ r.data = none

/-- The fields an operation does not use are ignored (30_encoding.md R37, R41). That an operation
keeps these fields is the model's choice, log 21. -/
def Obligations.IgnoredFieldsNeverMatter : Prop :=
  ∀ (s : State) (v a a' : Word) (d d' : Bool) (op x y x' y' : Byte),
    exec (.init a d) s = exec (.init a' d') s ∧
    exec (.setDisplay v d) s = exec (.setDisplay v d') s ∧
    exec (.getButtons a) s = exec (.getButtons a') s ∧
    exec (.getButtonsNodst a) s = exec (.getButtonsNodst a') s ∧
    exec (.rsvd0 a d) s = exec (.rsvd0 a' d') s ∧
    exec (.rsvd1 a d) s = exec (.rsvd1 a' d') s ∧
    exec (.rsvd2 a d) s = exec (.rsvd2 a' d') s ∧
    exec (.hostUnrecognised op a d) s = exec (.hostUnrecognised op a' d') s ∧
    exec (.ack x y) s = exec (.ack x' y') s ∧
    exec (.reset x y) s = exec (.reset x' y') s ∧
    exec (.rxUnrecognised op x y) s = exec (.rxUnrecognised op x' y') s

/-! ### The command encoder and the ROM -/

/-- 41_command_encoder.md R57: the undefined bits of a DisplayValue never matter, are stored as 0
and are never rejected. That the masked value is what is stored is the spec's decision D14 (log 15).
That `OK` carries no data is the spec's decision D19 (log 24). -/
def Obligations.UndefinedDisplayBitsNeverMatter : Prop :=
  (∀ (c : Config) (v : Word), encodeDisplay c v = encodeDisplay c (v &&& 0x0F0FFFFF)) ∧
  (∀ (c : Config) (v : Word) (s : State),
    (s.buildAndSend c v).dev.lastDisplay = v &&& 0x0F0FFFFF) ∧
  ∀ (v : Word) (dst : Bool) (s : State), ∃ t : State,
    exec (.setDisplay v dst) s = .next t ∧ t.reply = .host ⟨.ok, none⟩ ∧
      exec (.setDisplay (v &&& 0x0F0FFFFF) dst) s = .next t

/-- `SegByte` (41_command_encoder.md R56) for every table without a decimal-point bit: blank when
the active bit 16+i is 0, else the entry of the digit at bits 4i+3:4i, with bit 4 set (which is
adding 0x10) exactly when the decimal-point bit 24+i is 1; with the hardware's table an active
position is never 0x00 or 0x10; and the rule's worked examples. That nibble i, bit 16+i and bit 24+i
are one position is the spec's decision D10 (log 14); the concrete bytes, and that an active
position is never 0x00 or 0x10, rest on the ROM contents, its decision D9 from general knowledge
(log 8). -/
def Obligations.SegByteFollowsFields : Prop :=
  (∀ c : Config, c.RomHasNoDp → ∀ (dv : Word) (i : Fin 4) (a : Fin 16),
    a.val = dv.toNat / 16 ^ i.val % 16 →
    (dv.getLsbD (16 + i.val) = false → segByte c dv i = 0x00) ∧
    (dv.getLsbD (16 + i.val) = true → dv.getLsbD (24 + i.val) = false →
      segByte c dv i = c.segRom[a]) ∧
    (dv.getLsbD (16 + i.val) = true → dv.getLsbD (24 + i.val) = true →
      segByte c dv i = c.segRom[a] ||| 0x10 ∧ segByte c dv i = c.segRom[a] + 0x10)) ∧
  (∀ (dv : Word) (i : Fin 4), dv.getLsbD (16 + i.val) = true →
    segByte config dv i ≠ 0x00 ∧ segByte config dv i ≠ 0x10) ∧
  segByte config 0x04071234 2 = 0xDB ∧ segByte config 0x04071234 3 = 0x00 ∧
  segByte config 0x050A1234 0 = 0x00 ∧ segByte config 0x000F0000 1 = 0xE7 ∧
  segByte config 0x0F0F8888 0 = 0xFF

/-- `Encode` (41_command_encoder.md R55): six bytes, the command, the fixed control byte and the
four segment bytes, position 0 first; it depends only on the active bits and on the digit and
decimal-point bits of active positions; and the rule's worked example. The field positions are the
spec's decision D10 (log 14); the worked example's bytes are its decisions D7, D8 (log 7) and D9
(log 8), from general knowledge. -/
def Obligations.EncodeReadsVisibleFieldsOnly : Prop :=
  (∀ (c : Config) (dv : Word), encodeDisplay c dv =
    [c.cmdLedSet, c.ledMaskAll, segByte c dv 0, segByte c dv 1, segByte c dv 2, segByte c dv 3]) ∧
  (∀ c : Config, encodeDisplay c 0 = [c.cmdLedSet, c.ledMaskAll, 0, 0, 0, 0]) ∧
  encodeDisplay config 0x000F1234 = [0xC6, 0x0F, 0x2E, 0x8F, 0xCB, 0x06] ∧
  ∀ (c : Config) (v w : Word),
    (∀ i : Fin 4, v.getLsbD (16 + i.val) = w.getLsbD (16 + i.val)) →
    (∀ i : Fin 4, v.getLsbD (16 + i.val) = true →
      v.getLsbD (24 + i.val) = w.getLsbD (24 + i.val) ∧
      ∀ j : Fin 4, v.getLsbD (4 * i.val + j.val) = w.getLsbD (4 * i.val + j.val)) →
    encodeDisplay c v = encodeDisplay c w

/-- 10_state.md R17: only active positions are rendered, an inactive one is blank whatever its digit
and decimal point, and the stored DisplayValue keeps those bits. Which digit, active bit,
decimal-point bit and packet byte are one position is the spec's decision D10 (log 14). That the
stored value is the masked one is its decision D14 (log 15). -/
def Obligations.InactivePositionsAreBlank : Prop :=
  (∀ (c : Config) (dv : Word) (i : Fin 4),
    (dv.getLsbD (16 + i.val) = false → (encodeDisplay c dv)[2 + i.val]? = some 0) ∧
    (dv.getLsbD (16 + i.val) = true → (encodeDisplay c dv)[2 + i.val]? =
      some (c.segRom[(digit dv i).toFin] ||| (if dv.getLsbD (24 + i.val) then 0x10 else 0)))) ∧
  ∀ (s : State) (v : Word) (dst : Bool), s.dev.ackPending = false →
    ∃ t : State, exec (.setDisplay v dst) s = .next t ∧
      ∀ i j : Fin 4, t.dev.lastDisplay.getLsbD (4 * i.val + j.val) = v.getLsbD (4 * i.val + j.val) ∧
        t.dev.lastDisplay.getLsbD (16 + i.val) = v.getLsbD (16 + i.val) ∧
        t.dev.lastDisplay.getLsbD (24 + i.val) = v.getLsbD (24 + i.val)

/-- The contents of the ROM (40_display_encoding_rom.md R53; the glyph shapes are the spec's decision
D9, log 8), pairwise distinct, none blank. -/
def Obligations.RomHoldsTheTable : Prop :=
  (∀ d : Nibble, [0xE7, 0x06, 0xCB, 0x8F, 0x2E, 0xAD, 0xED, 0x86,
      0xEF, 0xAF, 0xEE, 0x6D, 0xE1, 0x4F, 0xE9, 0xE8][d.toNat]? = some (memRead config d)) ∧
  (∀ d e : Nibble, memRead config d = memRead config e → d = e) ∧
  ∀ d : Nibble, memRead config d ≠ 0x00

/-- SEGLOOKUP by itself (40_display_encoding_rom.md R54): the entry at the digit, nothing written and
nothing sent; that the entry is presented as the reply is the model's choice, log 10. -/
def Obligations.SegLookupReadsTheRom : Prop :=
  ∀ (s : State) (d : Nibble),
    decode (.romRead d) = .ok (.segLookup d) ∧
    exec (.segLookup d) s = .next { s with reply := .rom (config.segRom[d.toFin]) }

/-! ### Inbound packets -/

/-- The dispatcher (43_packet_decoder.md R63): every opcode selects exactly its arm, the step always
completes, there is no host response, and only a RESET packet makes the block send. That the events
are a list in State from which a step takes the first is the model's choice, log 1. -/
def Obligations.DispatcherSelectsOneArm : Prop :=
  ∀ (s : State) (op d1 d2 : Byte) (rest : List Input), s.inputs = .inboundPacket op d1 d2 :: rest →
    ∃ t : State, step s = .next t ∧ t.reply = .none ∧ t.inputs = rest ∧
      (op ≠ config.opReset → t.tx = s.tx) ∧
      step s =
        if op = config.opAck then exec (.ack d1 d2) { s with inputs := rest }
        else if op = config.opBiocEvent then exec (.biocEvent d1 d2) { s with inputs := rest }
        else if op = config.opReset then exec (.reset d1 d2) { s with inputs := rest }
        else .next { s with inputs := rest, reply := .none }

/-- ACK (43_packet_decoder.md R64): the flag is cleared whatever it held, nothing else changes,
nothing is sent. -/
def Obligations.AckOnlyClearsTheFlag : Prop :=
  ∀ (s : State) (d1 d2 : Byte),
    decode (.inboundPacket config.opAck d1 d2) = .ok (.ack d1 d2) ∧
    exec (.ack d1 d2) s =
      .next { s with dev := { s.dev with ackPending := false }, reply := .none }

/-- BIOC_EVENT (43_packet_decoder.md R65) with the hardware's `BTN_SRC` (the spec's decision D11,
log 9): the mask is overwritten with the rule's formula, nothing else changes; and the general form
of `Remap` for every `BTN_SRC`. That bits 7:4 are not read is its decision D13 (log 23). -/
def Obligations.BiocEventOverwritesTheMask : Prop :=
  (∀ (s : State) (d1 d2 : Byte),
    decode (.inboundPacket config.opBiocEvent d1 d2) = .ok (.biocEvent d1 d2) ∧
    exec (.biocEvent d1 d2) s =
      .next { s with
        dev := { s.dev with
          buttonMask := (d1 &&& 0x0F) ||| ((d2 &&& 0x01) <<< 4) ||| ((d2 &&& 0x04) <<< 3) |||
            ((d2 &&& 0x02) <<< 5) ||| ((d2 &&& 0x08) <<< 4) }
        reply := .none }) ∧
  ∀ (c : Config) (d1 d2 : Byte) (k : Fin 8),
    (c.btnSrc[k].byte = .d1 → (remap c d1 d2).getLsbD k.val = d1.getLsbD c.btnSrc[k].bit.val) ∧
    (c.btnSrc[k].byte = .d2 → (remap c d1 d2).getLsbD k.val = d2.getLsbD c.btnSrc[k].bit.val)

/-- For every `BTN_SRC` that meets 00_scope.md R10, the mask is a pure reordering of the two raw
nibbles: mask bit k is the raw bit `BTN_SRC[k]` itself (43_packet_decoder.md R65), so none is
inverted or combined; each of the eight raw bits is exactly one mask bit, so none is dropped or
duplicated; and so every mask is reached, and two packets give one mask exactly when their nibbles
agree. That only the low nibbles are read is the spec's decision D13 (log 23). -/
def Obligations.RemapIsAPermutation : Prop :=
  ∀ c : Config, c.ButtonsPermuted →
    (∀ (k : Fin 8) (d1 d2 : Byte), (remap c d1 d2).getLsbD k.val =
      (if c.btnSrc[k].byte = .d1 then d1 else d2).getLsbD c.btnSrc[k].bit.val) ∧
    (∀ b : Fin 4, ∃! k : Fin 8, ∀ d1 d2 : Byte,
      (remap c d1 d2).getLsbD k.val = d1.getLsbD b.val) ∧
    (∀ b : Fin 4, ∃! k : Fin 8, ∀ d1 d2 : Byte,
      (remap c d1 d2).getLsbD k.val = d2.getLsbD b.val) ∧
    (∀ m : Byte, ∃ d1 d2 : Byte, remap c d1 d2 = m) ∧
    ∀ d1 d2 e1 e2 : Byte, remap c d1 d2 = remap c e1 e2 ↔
      d1 &&& 0x0F = e1 &&& 0x0F ∧ d2 &&& 0x0F = e2 &&& 0x0F

/-- The type tag and the reserved bit of the data bytes are ignored, and every pair of bytes is
accepted (30_encoding.md R43; the reading is the spec's decision D13, log 23). -/
def Obligations.TagAndReservedBitsIgnored : Prop :=
  ∀ (s : State) (d1 d2 e1 e2 : Byte), d1 &&& 0x0F = e1 &&& 0x0F → d2 &&& 0x0F = e2 &&& 0x0F →
    ∃ t : State, exec (.biocEvent d1 d2) s = .next t ∧ exec (.biocEvent e1 e2) s = .next t

/-- RESET packet (43_packet_decoder.md R66, R68, R69; 70_reset_and_hazards.md R97; the reading is
the spec's decision D17, log 16): the init sequence always, the replay with the gate open; with the
gate closed the state stays and a later ACK sends nothing. In states whose `last_display` is masked,
as every step keeps it. The masked `last_display` is its decision D14 (log 15). -/
def Obligations.ResetPacketReplaysThroughGate : Prop :=
  ∀ (s : State) (d1 d2 : Byte), s.DisplayMasked →
    decode (.inboundPacket config.opReset d1 d2) = .ok (.reset d1 d2) ∧
    (s.dev.ackPending = false → exec (.reset d1 d2) s =
      .next { dev := { s.dev with ackPending := true }
              tx := s.tx ++ [config.cmdBiocOn, config.cmdLedUsr] ++
                encodeDisplay config s.dev.lastDisplay
              reply := .none
              inputs := s.inputs }) ∧
    (s.dev.ackPending = true →
      ∃ t u : State, exec (.reset d1 d2) s = .next t ∧
        t = { s with tx := s.tx ++ [config.cmdBiocOn, config.cmdLedUsr], reply := .none } ∧
        exec (.ack d1 d2) t = .next u ∧ u.tx = t.tx)

/-- An unrecognised packet (43_packet_decoder.md R67): nothing. -/
def Obligations.UnrecognisedPacketDoesNothing : Prop :=
  ∀ (s : State) (op d1 d2 : Byte),
    op ≠ config.opAck → op ≠ config.opBiocEvent → op ≠ config.opReset →
    decode (.inboundPacket op d1 d2) = .ok (.rxUnrecognised op d1 d2) ∧
    exec (.rxUnrecognised op d1 d2) s = .next { s with reply := .none }

/-! ### The outbound packets and the reset -/

/-- `InitBytes` (44_device_init.md R72): INIT and the RESET packet send it first, whatever the gate,
INIT with its state changes, the RESET packet without (its `ack_pending` changes only with the
replay, when it sends more); of the other events `RST` empties `tx` and none sends anything but the
LED-set packet of a DisplayValue. INIT's values are the spec's decisions D12 and D14 (log 6, log
15), RST's empty `tx` its decision D15 (log 19). That INIT_SEQ can be presented by itself, its
outcome and its empty reply are the model's choice, log 10. That the RESET packet sends it without
INIT's state changes is the spec's decision D17 (log 16). -/
def Obligations.InitSequenceSentByInitAndResetOnly : Prop :=
  (∀ s : State, exec .initSeq s =
    .next { s with tx := s.tx ++ [config.cmdBiocOn, config.cmdLedUsr], reply := .none }) ∧
  (∀ (i : Instr) (s : State), i.sendsInitBytes = true →
    ∃ (t : State) (more : List Byte), exec i s = .next t ∧
      t.tx = s.tx ++ [config.cmdBiocOn, config.cmdLedUsr] ++ more) ∧
  (∀ (s : State) (arg : Word) (dst : Bool), ∃ t : State, exec (.init arg dst) s = .next t ∧
    t.dev = { ackPending := true, buttonMask := config.btnIdle, lastDisplay := 0 }) ∧
  (∀ (s : State) (d1 d2 : Byte), ∃ t : State, exec (.reset d1 d2) s = .next t ∧
    (t.tx = s.tx ++ [config.cmdBiocOn, config.cmdLedUsr] → t.dev = s.dev)) ∧
  ∀ (i : Instr) (s : State), i.isEvent = true → i.sendsInitBytes = false →
    ∃ t : State, exec i s = .next t ∧
      (i.isRst = true → t.tx = []) ∧
      (i.isRst = false → t.tx = s.tx ∨ ∃ dv : Word, t.tx = s.tx ++ encodeDisplay config dv)

/-- LED_SET by itself (30_encoding.md R46; that it can be presented by itself is the model's choice,
log 10): its six bytes, nothing else; and the packet of every DisplayValue is one. -/
def Obligations.LedSetPacketIsSixBytes : Prop :=
  (∀ (s : State) (x0 x1 x2 x3 : Byte),
    decode (.outboundPacket [config.cmdLedSet, config.ledMaskAll, x0, x1, x2, x3]) =
      .ok (.ledSet x0 x1 x2 x3) ∧
    exec (.ledSet x0 x1 x2 x3) s =
      .next { s with
        tx := s.tx ++ [config.cmdLedSet, config.ledMaskAll, x0, x1, x2, x3]
        reply := .none }) ∧
  ∀ dv : Word, ∃ x0 x1 x2 x3 : Byte,
    decode (.outboundPacket (encodeDisplay config dv)) = .ok (.ledSet x0 x1 x2 x3)

/-- RST (70_reset_and_hazards.md R91; the event and its values are the spec's decision D15): from
any state the same values, `tx` empty, nothing sent. That the events after it stay to come is the
model's choice, log 13. D15 is log 19; the values of `button_mask` and `last_display` are its
decisions D12 and D14 (logs 6 and 15). -/
def Obligations.RstRestoresResetValues : Prop :=
  ∀ s : State, decode .rst = .ok .rst ∧
    ∃ t : State, exec .rst s = .next t ∧
      t.dev = { ackPending := false, buttonMask := config.btnIdle, lastDisplay := 0x00000000 } ∧
      t.tx = [] ∧ t.dev = State.reset.dev ∧ t.tx = State.reset.tx ∧ t.inputs = s.inputs

/-- No value survives a reset (70_reset_and_hazards.md R92): two machines with the same events to
come, `RST` the first of them, behave alike from then on, whatever they held. That the end of a
session is the event `RST`, and its values, are the spec's decisions D16 and D15 (log 19); that the
events after it stay to come is the model's choice, log 13, and that it leaves no reply is log 5.
That the events are a list in State from which a step takes the first is the model's choice, log
1. -/
def Obligations.NothingSurvivesRst : Prop :=
  ∀ (s s' : State) (rest : List Input) (k : Nat),
    s.inputs = .rst :: rest → s'.inputs = .rst :: rest →
    Host.Core.run Sys2Proof.core (k + 1) s = Host.Core.run Sys2Proof.core (k + 1) s'

/-- The state after reset (10_state.md R22; the values are the spec's decisions D12, D14, D15).
Those are logs 6, 15 and 19. -/
def Obligations.ResetStateValues : Prop :=
  State.reset.dev.ackPending = false ∧ State.reset.dev.buttonMask = config.btnIdle ∧
    State.reset.dev.lastDisplay = 0x00000000 ∧ State.reset.tx = []

/-- The hardware's parameters meet 00_scope.md R8, R9 and R10, whatever `BTN_IDLE` is. The values
are the spec's defaults from general knowledge (logs 7, 8 and 9), `BTN_IDLE` open (log 6). -/
def Obligations.ParametersMeetConstraints : Prop :=
  config.OpcodesDistinct ∧ config.RomHasNoDp ∧ config.ButtonsPermuted

/-! ### Rules about every event -/

/-- 20_memory.md R32: no operation blocks, waits or retries. Every host operation is one step that
completes with a response, in every state and with every operand, and no event is ever stuck. -/
def Obligations.EveryEventCompletesInOneStep : Prop :=
  (∀ (i : Instr) (s : State), i.isHostOperation = true →
    ∃ (t : State) (r : Response), exec i s = .next t ∧ t.reply = .host r) ∧
  ∀ (i : Instr) (s : State), i.isEvent = true → ∃ t : State, exec i s = .next t

/-- 42_flow_control_gate.md R60: a dropped SET_DISPLAY is answered `OK`, changes no element and sends
nothing; and nothing of it is queued or remembered: any events after it leave the elements and `tx` as
they would have without it, ACK and RESET packets among them. A second SET_DISPLAY, of any value, that
directly follows one that was sent is dropped. -/
def Obligations.DroppedDisplayIsNeverSeenAgain : Prop :=
  (∀ (s : State) (v : Word) (dst : Bool), s.dev.ackPending = true →
    ∃ (t : State) (r : Response), exec (.setDisplay v dst) s = .next t ∧
      t.reply = .host r ∧ r.status = .ok ∧ t.dev = s.dev ∧ t.tx = s.tx ∧
      ∀ is : List Instr, (∀ i ∈ is, i.isEvent = true) →
        (runFor config is t).dev = (runFor config is s).dev ∧
        (runFor config is t).tx = (runFor config is s).tx) ∧
  ∀ (s : State) (v w : Word) (dst dst' : Bool), s.dev.ackPending = false →
    ∃ (t u : State) (r : Response), exec (.setDisplay v dst) s = .next t ∧
      t.dev.ackPending = true ∧ exec (.setDisplay w dst') t = .next u ∧
      u.reply = .host r ∧ r.status = .ok ∧ u.dev = t.dev ∧ u.tx = t.tx

/-- 20_memory.md R24: among the events the ROM is read only by a SET_DISPLAY and a RESET packet that
find the gate open, and only through `SegByte`: with any other contents every other event is the same,
no event leaves other elements or another response, and a SET_DISPLAY or a RESET packet is the same if
the four `SegByte`s of the value it renders are, whatever else of the ROM differs.
What the RESET arm does is the spec's decision D17 (log 16); that a ROM read can be presented by
itself, which is no event, is the model's choice, log 10. -/
def Obligations.RomIsReadOnlyThroughAnOpenGate : Prop :=
  ∀ (c : Config) (rom : Vector Byte 16) (i : Instr) (s : State), i.isEvent = true →
    ((∀ (v : Word) (dst : Bool), i = .setDisplay v dst → s.dev.ackPending = true) →
      (∀ d1 d2 : Byte, i = .reset d1 d2 → s.dev.ackPending = true) →
      transition { c with segRom := rom } i s = transition c i s) ∧
    (transition { c with segRom := rom } i s).dev = (transition c i s).dev ∧
    (transition { c with segRom := rom } i s).reply = (transition c i s).reply ∧
    ((∀ (v : Word) (dst : Bool), i = .setDisplay v dst →
        ∀ k : Fin 4, segByte { c with segRom := rom } v k = segByte c v k) →
      (∀ d1 d2 : Byte, i = .reset d1 d2 → ∀ k : Fin 4,
        segByte { c with segRom := rom } s.dev.lastDisplay k = segByte c s.dev.lastDisplay k) →
      transition { c with segRom := rom } i s = transition c i s)
end

