-- ==== Sys2Proof/Laws/Decode.lean ====
section
/-! SUPPORT. Decoding: every event decodes to an event; what an outbound frame must be. -/

namespace Sys2Proof

/-- A host request decodes to an event whatever its fields (30_encoding.md R37, R48). -/
@[simp] theorem decodeHostRequest_isEvent (op : Byte) (arg : Word) (dst : Bool) :
    (decodeHostRequest op arg dst).isEvent = true := by
  unfold decodeHostRequest
  split <;> (try split) <;> rfl

/-- An inbound packet decodes to an event whatever its bytes (30_encoding.md R41, R48). -/
@[simp] theorem decodeInboundPacket_isEvent (c : Config) (op d1 d2 : Byte) :
    (decodeInboundPacket c op d1 d2).isEvent = true := by
  unfold decodeInboundPacket
  split
  · rfl
  · split
    · rfl
    · split <;> rfl

/-- The decoder is total on events (60_exceptions.md R81). -/
theorem decodeFor_event (c : Config) {inp : Input} (h : inp.isEvent = true) :
    ∃ i, decodeFor c inp = .ok i ∧ i.isEvent = true := by
  cases inp with
  | rst => exact ⟨_, rfl, rfl⟩
  | hostRequest op arg dst => exact ⟨_, rfl, by simp⟩
  | inboundPacket op d1 d2 => exact ⟨_, rfl, by simp⟩
  | outboundPacket bytes => cases h
  | romRead a => cases h

/-- What the decoder can answer on an outbound frame (30_encoding.md R45, R46). -/
theorem decodeOutboundPacket_cases (c : Config) (bytes : List Byte) :
    (bytes = [c.cmdBiocOn, c.cmdLedUsr] ∧ decodeOutboundPacket c bytes = .ok .initSeq) ∨
      (∃ x0 x1 x2 x3, bytes = [c.cmdLedSet, c.ledMaskAll, x0, x1, x2, x3] ∧
        decodeOutboundPacket c bytes = .ok (.ledSet x0 x1 x2 x3)) ∨
      (bytes ≠ [c.cmdBiocOn, c.cmdLedUsr] ∧
        (∀ x0 x1 x2 x3, bytes ≠ [c.cmdLedSet, c.ledMaskAll, x0, x1, x2, x3]) ∧
        decodeOutboundPacket c bytes = .error .unknownOutboundPacket) := by
  unfold decodeOutboundPacket
  split
  · split
    · rename_i h; exact .inl ⟨by rw [h.1, h.2], rfl⟩
    · rename_i h; exact .inr (.inr ⟨by simpa using h, by simp, rfl⟩)
  · split
    · rename_i h; exact .inr (.inl ⟨_, _, _, _, by rw [h.1, h.2], rfl⟩)
    · rename_i h
      refine .inr (.inr ⟨by simp, fun _ _ _ _ he => h ?_, rfl⟩)
      simp only [List.cons.injEq] at he
      exact ⟨he.1, he.2.1⟩
  · rename_i h2 h6
    exact .inr (.inr ⟨fun he => h2 _ _ he, fun _ _ _ _ he => h6 _ _ _ _ _ _ he, rfl⟩)

end Sys2Proof
end

