-- ==== Sys2Proof/Laws/Operands.lean ====
section
/-! SUPPORT. The operand forms: masking keeps the fields, the bits of a remapped mask. -/

namespace Sys2Proof.Machine

/-- Masking keeps exactly the defined bits (30_encoding.md R39). -/
theorem maskDisplay_getLsbD (v : Word) (k : Nat) :
    (maskDisplay v).getLsbD k = (v.getLsbD k && displayMask.getLsbD k) := by
  simp [maskDisplay]

@[simp] theorem maskDisplay_idem (v : Word) : maskDisplay (maskDisplay v) = maskDisplay v := by
  simp [maskDisplay, BitVec.and_assoc]

/-- The masked value has its undefined bits 0 (10_state.md R16). -/
@[simp] theorem maskDisplay_undefined (v : Word) : maskDisplay v &&& 0xF0F00000 = 0 := by
  simp [maskDisplay, displayMask, BitVec.and_assoc]

@[simp] theorem active_maskDisplay (v : Word) (i : Fin 4) : active (maskDisplay v) i = active v i := by
  have h : displayMask.getLsbD (16 + i.val) = true := by revert i; decide
  simp [active, maskDisplay_getLsbD, h]

@[simp] theorem dp_maskDisplay (v : Word) (i : Fin 4) : dp (maskDisplay v) i = dp v i := by
  have h : displayMask.getLsbD (24 + i.val) = true := by revert i; decide
  simp [dp, maskDisplay_getLsbD, h]

@[simp] theorem digit_maskDisplay (v : Word) (i : Fin 4) : digit (maskDisplay v) i = digit v i := by
  have h : ∀ (i j : Fin 4), displayMask.getLsbD (4 * i.val + j.val) = true := by decide
  ext k hk
  have hk' := h i ⟨k, hk⟩
  simp only [digit, BitVec.getElem_extractLsb', maskDisplay_getLsbD, hk', Bool.and_true]

/-- Mask bit k is the raw bit `BTN_SRC[k]` (43_packet_decoder.md R65). -/
@[simp] theorem remap_getLsbD (c : Config) (d1 d2 : Byte) (k : Fin 8) :
    (remap c d1 d2).getLsbD k.val = rawBit c.btnSrc[k] d1 d2 := by
  simp [remap]

/-- A raw bit lies in bits 3:0 of its byte, so the other bits do not matter (30_encoding.md R43). -/
@[simp] theorem rawBit_low_nibbles (r : RawBit) (d1 d2 : Byte) :
    rawBit r (d1 &&& 0x0F) (d2 &&& 0x0F) = rawBit r d1 d2 := by
  obtain ⟨b, k⟩ := r
  have h : (0x0F : Byte).getLsbD k.val = true := by revert k; decide
  cases b <;> simp only [rawBit, BitVec.getLsbD_and, h, Bool.and_true]

/-- A value whose undefined bits are 0 is its own masked value (10_state.md R16). -/
theorem maskDisplay_of_masked {v : Word} (h : v &&& 0xF0F00000 = 0) : maskDisplay v = v := by
  have hv : v &&& (displayMask ||| 0xF0F00000) = v := by
    show v &&& 0xFFFFFFFF = v
    exact BitVec.and_allOnes
  rw [BitVec.and_or_distrib_left, h] at hv
  exact BitVec.or_zero.symm.trans hv

/-- The digit of a position in arithmetic: nibble i of the word (30_encoding.md R40). -/
theorem digit_toNat (dv : Word) (i : Fin 4) :
    (digit dv i).toNat = dv.toNat / 16 ^ i.val % 16 := by
  simp only [digit, BitVec.extractLsb'_toNat, Nat.shiftRight_eq_div_pow, Nat.pow_mul]

/-- Two bytes have one low nibble exactly when their bits 3:0 agree. -/
theorem low_nibble_eq_iff (x y : Byte) :
    x &&& 0x0F = y &&& 0x0F ↔ ∀ b : Fin 4, x.getLsbD b.val = y.getLsbD b.val := by
  have hm : ∀ b : Fin 4, (0x0F : Byte).getLsbD b.val = true := by decide
  constructor
  · intro h b
    have hb := congrArg (fun z => BitVec.getLsbD z b.val) h
    simpa only [BitVec.getLsbD_and, hm b, Bool.and_true] using hb
  · intro h
    ext k hk
    simp only [← BitVec.getLsbD_eq_getElem, BitVec.getLsbD_and]
    by_cases h4 : k < 4
    · rw [show x.getLsbD k = y.getLsbD k from h ⟨k, h4⟩]
    · have hk' : (0x0F : Byte).getLsbD k = false := by
        have hs : k = 4 ∨ k = 5 ∨ k = 6 ∨ k = 7 := by omega
        rcases hs with rfl | rfl | rfl | rfl <;> rfl
      rw [hk', Bool.and_false, Bool.and_false]

/-- Every raw bit is one of the eight. -/
theorem mem_rawBit_all (r : RawBit) : r ∈ RawBit.all := by
  obtain ⟨b, k⟩ := r
  cases b <;> fin_cases k <;> decide

end Sys2Proof.Machine
end

