-- ==== Sys2Proof/Laws/State.lean ====
section
/-! SUPPORT. One lemma per field per state update, each true by definition, so that no later proof
unfolds a record update. -/

namespace Sys2Proof.Machine

/-! ### transmit -/

@[simp] theorem State.transmit_dev (bytes : List Byte) (s : State) :
    (s.transmit bytes).dev = s.dev := rfl

@[simp] theorem State.transmit_tx (bytes : List Byte) (s : State) :
    (s.transmit bytes).tx = s.tx ++ bytes := rfl

@[simp] theorem State.transmit_reply (bytes : List Byte) (s : State) :
    (s.transmit bytes).reply = s.reply := rfl

@[simp] theorem State.transmit_inputs (bytes : List Byte) (s : State) :
    (s.transmit bytes).inputs = s.inputs := rfl

/-! ### setAckPending -/

@[simp] theorem State.setAckPending_dev (b : Bool) (s : State) :
    (s.setAckPending b).dev = { s.dev with ackPending := b } := rfl

@[simp] theorem State.setAckPending_tx (b : Bool) (s : State) :
    (s.setAckPending b).tx = s.tx := rfl

@[simp] theorem State.setAckPending_reply (b : Bool) (s : State) :
    (s.setAckPending b).reply = s.reply := rfl

@[simp] theorem State.setAckPending_inputs (b : Bool) (s : State) :
    (s.setAckPending b).inputs = s.inputs := rfl

/-! ### setButtonMask -/

@[simp] theorem State.setButtonMask_dev (m : Byte) (s : State) :
    (s.setButtonMask m).dev = { s.dev with buttonMask := m } := rfl

@[simp] theorem State.setButtonMask_tx (m : Byte) (s : State) :
    (s.setButtonMask m).tx = s.tx := rfl

@[simp] theorem State.setButtonMask_reply (m : Byte) (s : State) :
    (s.setButtonMask m).reply = s.reply := rfl

@[simp] theorem State.setButtonMask_inputs (m : Byte) (s : State) :
    (s.setButtonMask m).inputs = s.inputs := rfl

/-! ### setLastDisplay -/

@[simp] theorem State.setLastDisplay_dev (dv : Word) (s : State) :
    (s.setLastDisplay dv).dev = { s.dev with lastDisplay := dv } := rfl

@[simp] theorem State.setLastDisplay_tx (dv : Word) (s : State) :
    (s.setLastDisplay dv).tx = s.tx := rfl

@[simp] theorem State.setLastDisplay_reply (dv : Word) (s : State) :
    (s.setLastDisplay dv).reply = s.reply := rfl

@[simp] theorem State.setLastDisplay_inputs (dv : Word) (s : State) :
    (s.setLastDisplay dv).inputs = s.inputs := rfl

/-! ### answer -/

@[simp] theorem State.answer_dev (r : Reply) (s : State) :
    (s.answer r).dev = s.dev := rfl

@[simp] theorem State.answer_tx (r : Reply) (s : State) :
    (s.answer r).tx = s.tx := rfl

@[simp] theorem State.answer_reply (r : Reply) (s : State) :
    (s.answer r).reply = r := rfl

@[simp] theorem State.answer_inputs (r : Reply) (s : State) :
    (s.answer r).inputs = s.inputs := rfl

/-! ### respond -/

@[simp] theorem State.respond_dev (st : Status) (d : Option Word) (s : State) :
    (s.respond st d).dev = s.dev := rfl

@[simp] theorem State.respond_tx (st : Status) (d : Option Word) (s : State) :
    (s.respond st d).tx = s.tx := rfl

@[simp] theorem State.respond_reply (st : Status) (d : Option Word) (s : State) :
    (s.respond st d).reply = .host ⟨st, d⟩ := rfl

@[simp] theorem State.respond_inputs (st : Status) (d : Option Word) (s : State) :
    (s.respond st d).inputs = s.inputs := rfl

/-! ### raise -/

@[simp] theorem State.raise_dev (st : Status) (s : State) :
    (s.raise st).dev = s.dev := rfl

@[simp] theorem State.raise_tx (st : Status) (s : State) :
    (s.raise st).tx = s.tx := rfl

@[simp] theorem State.raise_reply (st : Status) (s : State) :
    (s.raise st).reply = .host ⟨st, none⟩ := rfl

@[simp] theorem State.raise_inputs (st : Status) (s : State) :
    (s.raise st).inputs = s.inputs := rfl

/-! ### hardwareReset -/

@[simp] theorem State.hardwareReset_dev (c : Config) (s : State) :
    (s.hardwareReset c).dev = DeviceState.resetFor c := rfl

@[simp] theorem State.hardwareReset_tx (c : Config) (s : State) :
    (s.hardwareReset c).tx = [] := rfl

@[simp] theorem State.hardwareReset_reply (c : Config) (s : State) :
    (s.hardwareReset c).reply = .none := rfl

@[simp] theorem State.hardwareReset_inputs (c : Config) (s : State) :
    (s.hardwareReset c).inputs = s.inputs := rfl

/-! ### the reset state and the gate -/

@[simp] theorem DeviceState.resetFor_ackPending (c : Config) :
    (DeviceState.resetFor c).ackPending = false := rfl

@[simp] theorem DeviceState.resetFor_buttonMask (c : Config) :
    (DeviceState.resetFor c).buttonMask = c.btnIdle := rfl

@[simp] theorem DeviceState.resetFor_lastDisplay (c : Config) :
    (DeviceState.resetFor c).lastDisplay = 0 := rfl

@[simp] theorem State.gateOpen_eq (s : State) : s.gateOpen = !s.dev.ackPending := rfl

@[simp] theorem State.withFetchWord_inputs (s : State) (nbits w : Nat) :
    (s.withFetchWord nbits w).inputs = tableInput nbits w :: s.inputs := rfl

@[simp] theorem State.withFetchWord_dev (s : State) (nbits w : Nat) :
    (s.withFetchWord nbits w).dev = s.dev := rfl

@[simp] theorem State.withFetchWord_tx (s : State) (nbits w : Nat) :
    (s.withFetchWord nbits w).tx = s.tx := rfl

@[simp] theorem State.withFetchWord_reply (s : State) (nbits w : Nat) :
    (s.withFetchWord nbits w).reply = s.reply := rfl

end Sys2Proof.Machine
end

