-- ==== Sys2Proof/Laws/Ops.lean ====
section
/-! SUPPORT. What each shared operation does, said once; the command encoder. -/

namespace Sys2Proof.Machine

/-! ### The command encoder -/

@[simp] theorem initBytes_length (c : Config) : (initBytes c).length = 2 := rfl

@[simp] theorem encodeDisplay_length (c : Config) (dv : Word) : (encodeDisplay c dv).length = 6 := rfl

@[simp] theorem segByte_maskDisplay (c : Config) (v : Word) (i : Fin 4) :
    segByte c (maskDisplay v) i = segByte c v i := by
  simp [segByte]

/-- `Encode` reads the defined bits only (41_command_encoder.md R57). -/
@[simp] theorem encodeDisplay_maskDisplay (c : Config) (v : Word) :
    encodeDisplay c (maskDisplay v) = encodeDisplay c v := by
  simp [encodeDisplay]

/-- An inactive position is blank (10_state.md R17). -/
theorem segByte_inactive (c : Config) {dv : Word} {i : Fin 4} (h : active dv i = false) :
    segByte c dv i = 0 := by
  simp [segByte, h]

/-- An active position's byte: the ROM entry, with the decimal point's bit if it is set
(41_command_encoder.md R56). -/
theorem segByte_active (c : Config) {dv : Word} {i : Fin 4} (h : active dv i = true) :
    segByte c dv i = memRead c (digit dv i) ||| (if dp dv i then dpBit else 0) := by
  simp only [segByte, h, if_true]
  split <;> simp

/-! ### BuildAndSend, the gate -/

/-- `BuildAndSend` as one record update (41_command_encoder.md R58). -/
theorem State.buildAndSend_eq (c : Config) (v : Word) (s : State) :
    s.buildAndSend c v =
      { dev := { ackPending := true, buttonMask := s.dev.buttonMask, lastDisplay := maskDisplay v }
        tx := s.tx ++ encodeDisplay c v
        reply := s.reply
        inputs := s.inputs } := by
  rw [← encodeDisplay_maskDisplay]
  rfl

theorem State.gatedBuildAndSend_open (c : Config) (v : Word) {s : State}
    (h : s.dev.ackPending = false) : s.gatedBuildAndSend c v = s.buildAndSend c v := by
  simp [State.gatedBuildAndSend, h]

theorem State.gatedBuildAndSend_closed (c : Config) (v : Word) {s : State}
    (h : s.dev.ackPending = true) : s.gatedBuildAndSend c v = s := by
  simp [State.gatedBuildAndSend, h]

@[simp] theorem State.gatedBuildAndSend_buttonMask (c : Config) (v : Word) (s : State) :
    (s.gatedBuildAndSend c v).dev.buttonMask = s.dev.buttonMask := by
  unfold State.gatedBuildAndSend
  split <;> rfl

@[simp] theorem State.gatedBuildAndSend_inputs (c : Config) (v : Word) (s : State) :
    (s.gatedBuildAndSend c v).inputs = s.inputs := by
  unfold State.gatedBuildAndSend
  split <;> rfl

@[simp] theorem State.gatedBuildAndSend_ackPending (c : Config) (v : Word) (s : State) :
    (s.gatedBuildAndSend c v).dev.ackPending = true := by
  cases h : s.dev.ackPending
  · simp [State.gatedBuildAndSend_open c v h, State.buildAndSend_eq]
  · simpa [State.gatedBuildAndSend_closed c v h] using h

/-! ### The operations, one equation for each case -/

/-- INIT as one record (44_device_init.md R70). -/
theorem initOp_eq (c : Config) (s : State) :
    initOp c s =
      { dev := ⟨true, c.btnIdle, 0⟩
        tx := s.tx ++ initBytes c
        reply := .host ⟨.ok, none⟩
        inputs := s.inputs } := rfl

/-- SET_DISPLAY with the gate open (42_flow_control_gate.md R59). -/
theorem setDisplayOp_open (c : Config) (v : Word) {s : State} (h : s.dev.ackPending = false) :
    setDisplayOp c v s =
      { dev := ⟨true, s.dev.buttonMask, maskDisplay v⟩
        tx := s.tx ++ encodeDisplay c v
        reply := .host ⟨.ok, none⟩
        inputs := s.inputs } := by
  rw [setDisplayOp, State.gatedBuildAndSend_open c v h, State.buildAndSend_eq]
  rfl

/-- SET_DISPLAY with the gate closed (42_flow_control_gate.md R60). -/
theorem setDisplayOp_closed (c : Config) (v : Word) {s : State} (h : s.dev.ackPending = true) :
    setDisplayOp c v s = s.respond .ok none := by
  rw [setDisplayOp, State.gatedBuildAndSend_closed c v h]

/-- A RESET packet with the gate open (43_packet_decoder.md R66). -/
theorem resetOp_open (c : Config) {s : State} (h : s.dev.ackPending = false) :
    resetOp c s =
      { dev := ⟨true, s.dev.buttonMask, maskDisplay s.dev.lastDisplay⟩
        tx := s.tx ++ initBytes c ++ encodeDisplay c s.dev.lastDisplay
        reply := .none
        inputs := s.inputs } := by
  rw [resetOp, State.gatedBuildAndSend_open c _ (by simpa using h), State.buildAndSend_eq]
  rfl

/-- A RESET packet with the gate closed (43_packet_decoder.md R66, 70_reset_and_hazards.md R97). -/
theorem resetOp_closed (c : Config) {s : State} (h : s.dev.ackPending = true) :
    resetOp c s = (s.transmit (initBytes c)).answer .none := by
  rw [resetOp, State.gatedBuildAndSend_closed c _ (by simpa using h)]

end Sys2Proof.Machine
end

