-- ==== Sys2Proof/Laws/PerInstr.lean ====
section
/-! SUPPORT. The family EncodedKind, a statement about every operation as syntax: the frame an
operation encodes to is an event exactly when the operation is one. -/

namespace Sys2Proof.Laws.EncodedKind

def Statement (i : Instr) : Prop := (encode i).isEvent = i.isEvent

theorem init (reqArg : Word) (reqDstValid : Bool) : Statement (.init reqArg reqDstValid) := rfl
theorem setDisplay (value : Word) (reqDstValid : Bool) :
    Statement (.setDisplay value reqDstValid) := rfl
theorem getButtons (reqArg : Word) : Statement (.getButtons reqArg) := rfl
theorem getButtonsNodst (reqArg : Word) : Statement (.getButtonsNodst reqArg) := rfl
theorem rsvd0 (reqArg : Word) (reqDstValid : Bool) : Statement (.rsvd0 reqArg reqDstValid) := rfl
theorem rsvd1 (reqArg : Word) (reqDstValid : Bool) : Statement (.rsvd1 reqArg reqDstValid) := rfl
theorem rsvd2 (reqArg : Word) (reqDstValid : Bool) : Statement (.rsvd2 reqArg reqDstValid) := rfl
theorem hostUnrecognised (reqOp : Byte) (reqArg : Word) (reqDstValid : Bool) :
    Statement (.hostUnrecognised reqOp reqArg reqDstValid) := rfl
theorem ack (d1 d2 : Byte) : Statement (.ack d1 d2) := rfl
theorem biocEvent (d1 d2 : Byte) : Statement (.biocEvent d1 d2) := rfl
theorem reset (d1 d2 : Byte) : Statement (.reset d1 d2) := rfl
theorem rxUnrecognised (op d1 d2 : Byte) : Statement (.rxUnrecognised op d1 d2) := rfl
theorem initSeq : Statement .initSeq := rfl
theorem ledSet (seg0 seg1 seg2 seg3 : Byte) : Statement (.ledSet seg0 seg1 seg2 seg3) := rfl
theorem segLookup (digit : Nibble) : Statement (.segLookup digit) := rfl
theorem rst : Statement .rst := rfl

end Sys2Proof.Laws.EncodedKind
end

