-- ==== Sys2Proof/Laws/Step.lean ====
section
/-! SUPPORT. What a step can do, said once; `exec` is the transition function at the hardware's
configuration; runs. -/

namespace Sys2Proof.Machine

/-- Every operation completes, with the transition function's state (60_exceptions.md R81). -/
theorem exec_eq_transition (i : Instr) (s : State) : exec i s = .next (transition config i s) := by
  cases i <;> rfl

/-- No operation touches the events still to come. -/
@[simp] theorem transition_inputs (c : Config) (i : Instr) (s : State) :
    (transition c i s).inputs = s.inputs := by
  cases i with
  | setDisplay v d => simp [transition, setDisplayOp]
  | reset d1 d2 => simp [transition, resetOp]
  | _ => rfl

theorem step_nil {s : State} (h : s.inputs = []) : step s = .next s := by
  simp [step, h]

theorem step_decoded {s : State} {inp : Input} {rest : List Input} {i : Instr}
    (h : s.inputs = inp :: rest) (hd : decode inp = .ok i) :
    step s = .next (transition config i { s with inputs := rest }) := by
  simp [step, h, hd, exec_eq_transition]

theorem step_undecoded {s : State} {inp : Input} {rest : List Input} {e : DecodeError}
    (h : s.inputs = inp :: rest) (hd : decode inp = .error e) :
    step s = .refused (.undecodable e) := by
  simp [step, h, hd]

/-- A step that answers a next state did nothing for want of an event, or carried out one operation. -/
theorem step_next_cases {s t : State} (h : step s = .next t) :
    (s.inputs = [] ∧ t = s) ∨
      ∃ inp rest i, s.inputs = inp :: rest ∧ decode inp = .ok i ∧
        t = transition config i { s with inputs := rest } := by
  cases hs : s.inputs with
  | nil =>
    rw [step_nil hs] at h
    exact .inl ⟨rfl, by injection h with h; exact h.symm⟩
  | cons inp rest =>
    cases hd : decode inp with
    | error e => rw [step_undecoded hs hd] at h; cases h
    | ok i =>
      rw [step_decoded hs hd] at h
      injection h with h
      exact .inr ⟨inp, rest, i, rfl, hd, h.symm⟩

/-- On events the step always answers a next state, with only events to come (60_exceptions.md R81). -/
theorem step_onlyEvents {s : State} (h : s.OnlyEvents) : ∃ t, step s = .next t ∧ t.OnlyEvents := by
  cases hs : s.inputs with
  | nil => exact ⟨s, step_nil hs, h⟩
  | cons inp rest =>
    simp only [State.OnlyEvents, hs, List.mem_cons, forall_eq_or_imp] at h
    obtain ⟨i, hd, _⟩ := decodeFor_event config h.1
    exact ⟨_, step_decoded hs hd, by simpa [State.OnlyEvents] using h.2⟩

/-- The events still to come do not influence an operation. -/
theorem transition_withInputs (c : Config) (i : Instr) (s : State) (x : List Input) :
    transition c i { s with inputs := x } = { transition c i s with inputs := x } := by
  obtain ⟨⟨pending, m, dv⟩, tx, r, inputs⟩ := s
  cases i with
  | setDisplay v _ => cases pending <;> rfl
  | reset _ _ => cases pending <;> rfl
  | _ => rfl

/-! ### Runs -/

/-- One step of a run of any machine. -/
theorem run_succ (M : Host.Core) (k : Nat) {s t : M.State} (h : M.step s = .next t) :
    M.run (k + 1) s = M.run k t := by
  simp only [Host.Core.run, h]

@[simp] theorem runFor_nil (c : Config) (s : State) : runFor c [] s = s := rfl

@[simp] theorem runFor_cons (c : Config) (i : Instr) (is : List Instr) (s : State) :
    runFor c (i :: is) s = runFor c is (transition c i s) := rfl

theorem runFor_append (c : Config) (is js : List Instr) (s : State) :
    runFor c (is ++ js) s = runFor c js (runFor c is s) := by
  induction is generalizing s with
  | nil => rfl
  | cons i is ih => exact ih _

theorem runFor_withInputs (c : Config) (is : List Instr) (s : State) (x : List Input) :
    runFor c is { s with inputs := x } = { runFor c is s with inputs := x } := by
  induction is generalizing s with
  | nil => rfl
  | cons i is ih => rw [runFor_cons, transition_withInputs, ih, runFor_cons]

/-- An invariant that every operation of a run keeps holds after the run. -/
theorem runFor_keeps (c : Config) (P : State → Prop) (is : List Instr)
    (hP : ∀ i ∈ is, ∀ s, P s → P (transition c i s)) (s : State) (h : P s) : P (runFor c is s) := by
  induction is generalizing s with
  | nil => exact h
  | cons i is ih =>
    exact ih (fun j hj => hP j (List.mem_cons_of_mem _ hj)) _ (hP i List.mem_cons_self s h)

/-- An operation that does not replace `last_display` leaves it, if its undefined bits are 0
(10_state.md R16). -/
theorem transition_lastDisplay (c : Config) {i : Instr} {s : State}
    (hi : i.replacesDisplay s.dev.ackPending = false) (hm : s.DisplayMasked) :
    (transition c i s).dev.lastDisplay = s.dev.lastDisplay := by
  cases i with
  | init _ _ => cases hi
  | rst => cases hi
  | setDisplay v _ =>
    have h : s.dev.ackPending = true := by simpa [Instr.replacesDisplay] using hi
    simp only [transition, setDisplayOp_closed c v h, State.respond_dev]
  | reset _ _ =>
    simp only [transition]
    cases h : s.dev.ackPending
    · simp only [resetOp_open c h, maskDisplay_of_masked hm]
    · simp only [resetOp_closed c h, State.answer_dev, State.transmit_dev]
  | _ => rfl

/-- A sequence that replaces `last_display` nowhere leaves it, if its undefined bits are 0. -/
theorem runFor_lastDisplay (c : Config) (is : List Instr) {s : State}
    (hk : keepsDisplay c is s = true) (hm : s.DisplayMasked) :
    (runFor c is s).dev.lastDisplay = s.dev.lastDisplay := by
  induction is generalizing s with
  | nil => rfl
  | cons i is ih =>
    simp only [keepsDisplay, Bool.and_eq_true, Bool.not_eq_true'] at hk
    have hi := transition_lastDisplay c hk.1 hm
    rw [runFor_cons, ih hk.2 (by rw [State.DisplayMasked, hi]; exact hm), hi]

/-- The elements and `tx` after an operation depend on the elements and `tx` before it alone: no
operation reads what an earlier one answered or what is to be presented. -/
theorem transition_dev_tx_congr (c : Config) (i : Instr) {s s' : State} (hd : s.dev = s'.dev)
    (ht : s.tx = s'.tx) :
    (transition c i s).dev = (transition c i s').dev ∧
      (transition c i s).tx = (transition c i s').tx := by
  obtain ⟨⟨pending, m, dv⟩, tx, r, inputs⟩ := s
  obtain ⟨dev', tx', r', inputs'⟩ := s'
  cases hd
  cases ht
  cases i with
  | setDisplay _ _ => cases pending <;> exact ⟨rfl, rfl⟩
  | reset _ _ => cases pending <;> exact ⟨rfl, rfl⟩
  | _ => exact ⟨rfl, rfl⟩

theorem runFor_dev_tx_congr (c : Config) (is : List Instr) {s s' : State} (hd : s.dev = s'.dev)
    (ht : s.tx = s'.tx) :
    (runFor c is s).dev = (runFor c is s').dev ∧ (runFor c is s).tx = (runFor c is s').tx := by
  induction is generalizing s s' with
  | nil => exact ⟨hd, ht⟩
  | cons i is ih =>
    have h := transition_dev_tx_congr c i hd ht
    exact ih h.1 h.2

end Sys2Proof.Machine
end

