-- ==== Sys2Proof/Tests/Slice0.lean ====
section
/-! SUPPORT. Tests, each with its expected result from the spec (named in its comment), and one
witness for the hypotheses of every statement that has some. -/

namespace Sys2Proof.Tests

open Sys2Proof.Machine

/-! ### Helpers -/

/-- A small state: the three elements as the spec's vectors write them, `tx` empty. -/
def st (pending : Bool) (m : Byte) (dv : Word) : State := ⟨⟨pending, m, dv⟩, [], .none, []⟩

def txOf : Host.Outcome State Fault Refusal → Option (List Byte)
  | .next t => some t.tx
  | _ => none

def devOf : Host.Outcome State Fault Refusal → Option DeviceState
  | .next t => some t.dev
  | _ => none

def replyOf : Host.Outcome State Fault Refusal → Option Reply
  | .next t => some t.reply
  | _ => none

/-! ### WellFormed: each check refuses an ill-formed term -/

theorem test_wf_host_unrecognised_refuses_rsvd2 :
    (Instr.hostUnrecognised 0x05 0 false).wellFormed = false := by decide
theorem test_wf_rx_unrecognised_refuses_ack :
    (Instr.rxUnrecognised 0x40 0 0).wellFormed = false := by decide
theorem test_wf_rx_unrecognised_refuses_bioc :
    (Instr.rxUnrecognised 0x41 0 0).wellFormed = false := by decide
theorem test_wf_rx_unrecognised_refuses_reset :
    (Instr.rxUnrecognised 0x46 0 0).wellFormed = false := by decide

/-! ### Decode: one frame of every row, written out (30_encoding.md R37, R41, R45, R46) -/

theorem test_decode_init : decode (.hostRequest 0b00000000 7 true) = .ok (.init 7 true) := by decide
theorem test_decode_set_display : decode (.hostRequest 0b00000001 0x000F1234 false) =
    .ok (.setDisplay 0x000F1234 false) := by decide
theorem test_decode_get_buttons : decode (.hostRequest 0b00000010 0 true) =
    .ok (.getButtons 0) := by decide
theorem test_decode_get_buttons_nodst : decode (.hostRequest 0b00000010 0 false) =
    .ok (.getButtonsNodst 0) := by decide
theorem test_decode_rsvd0 : decode (.hostRequest 0b00000011 1 true) = .ok (.rsvd0 1 true) := by decide
theorem test_decode_rsvd1 : decode (.hostRequest 0b00000100 1 true) = .ok (.rsvd1 1 true) := by decide
theorem test_decode_rsvd2 : decode (.hostRequest 0b00000101 1 true) = .ok (.rsvd2 1 true) := by decide
theorem test_decode_host_unrecognised : decode (.hostRequest 0b01111111 1 true) =
    .ok (.hostUnrecognised 0x7F 1 true) := by decide
theorem test_decode_ack : decode (.inboundPacket 0b01000000 0xFF 0xFF) =
    .ok (.ack 0xFF 0xFF) := by decide
theorem test_decode_bioc_event : decode (.inboundPacket 0b01000001 0x7E 0x0D) =
    .ok (.biocEvent 0x7E 0x0D) := by decide
theorem test_decode_reset : decode (.inboundPacket 0b01000110 0 0) = .ok (.reset 0 0) := by decide
/-- 95_test_vectors.md section 2.4: the unrecognised opcodes. -/
theorem test_decode_rx_unrecognised :
    ([0x00, 0x3F, 0x42, 0x43, 0x44, 0x45, 0x47, 0xC6, 0xFF] : List Byte).all (fun op =>
      decide (decode (.inboundPacket op 1 2) = .ok (.rxUnrecognised op 1 2))) = true := by decide
theorem test_decode_init_seq : decode (.outboundPacket [0b11000011, 0b11001000]) =
    .ok .initSeq := by decide
theorem test_decode_led_set :
    decode (.outboundPacket [0b11000110, 0b00001111, 0x2E, 0x8F, 0xCB, 0x06]) =
      .ok (.ledSet 0x2E 0x8F 0xCB 0x06) := by decide
theorem test_decode_seg_lookup : decode (.romRead 0b0100) = .ok (.segLookup 4) := by decide
theorem test_decode_rst : decode .rst = .ok .rst := by decide
/-- The bytes the other way round are no packet (30_encoding.md R45: first CMD_BIOC_ON). -/
theorem test_decode_refuses_swapped_init_seq :
    decode (.outboundPacket [0xC8, 0xC3]) = .error .unknownOutboundPacket := by decide

/-! ### The pure functions, on the vectors of 95_test_vectors.md -/

/-- Section 2.1, with the two checksums it gives for a transcribed table. -/
theorem test_rom_checksums :
    (List.finRange 16).foldl (fun x d => x ^^^ memRead config (BitVec.ofFin d)) 0 = 0x21 ∧
      (List.finRange 16).foldl (fun x d => x + memRead config (BitVec.ofFin d)) 0 = 0x8F := by decide

/-- Section 2.2, the rows with digits 0 to F and the decimal point. -/
def encodeVectorsA : List (Word × List Byte) :=
  [(0x000F1234, [0xC6, 0x0F, 0x2E, 0x8F, 0xCB, 0x06]),
   (0x000F4321, [0xC6, 0x0F, 0x06, 0xCB, 0x8F, 0x2E]),
   (0x000F0123, [0xC6, 0x0F, 0x8F, 0xCB, 0x06, 0xE7]),
   (0x000F4567, [0xC6, 0x0F, 0x86, 0xED, 0xAD, 0x2E]),
   (0x000F89AB, [0xC6, 0x0F, 0x6D, 0xEE, 0xAF, 0xEF]),
   (0x000FCDEF, [0xC6, 0x0F, 0xE8, 0xE9, 0x4F, 0xE1]),
   (0x0F0FABCD, [0xC6, 0x0F, 0x5F, 0xF1, 0x7D, 0xFE]),
   (0x0A0FCAFE, [0xC6, 0x0F, 0xE9, 0xF8, 0xEE, 0xF1])]

/-- Section 2.2, the rows with inactive positions and undefined bits. -/
def encodeVectorsB : List (Word × List Byte) :=
  [(0x0F00FFFF, [0xC6, 0x0F, 0x00, 0x00, 0x00, 0x00]),
   (0x04071234, [0xC6, 0x0F, 0x2E, 0x8F, 0xDB, 0x00]),
   (0x00051234, [0xC6, 0x0F, 0x2E, 0x00, 0xCB, 0x00]),
   (0x050A1234, [0xC6, 0x0F, 0x00, 0x8F, 0x00, 0x06]),
   (0x0203ECE3, [0xC6, 0x0F, 0x8F, 0xF9, 0x00, 0x00]),
   (0x0102BEEF, [0xC6, 0x0F, 0x00, 0xE9, 0x00, 0x00]),
   (0x08080F00, [0xC6, 0x0F, 0x00, 0x00, 0x00, 0xF7]),
   (0x00010007, [0xC6, 0x0F, 0x86, 0x00, 0x00, 0x00]),
   (0xFFFFFFFF, [0xC6, 0x0F, 0xF8, 0xF8, 0xF8, 0xF8]),
   (0x00F0FFFF, [0xC6, 0x0F, 0x00, 0x00, 0x00, 0x00])]

theorem test_encode_digits : ∀ p ∈ encodeVectorsA, encodeDisplay config p.1 = p.2 := by decide
theorem test_encode_inactive : ∀ p ∈ encodeVectorsB, encodeDisplay config p.1 = p.2 := by decide

/-- Section S3: the eight raw bits one at a time. -/
theorem test_remap_single_bits : ([(0x81, 0x80, 0x01), (0x82, 0x80, 0x02), (0x84, 0x80, 0x04),
    (0x88, 0x80, 0x08), (0x80, 0x81, 0x10), (0x80, 0x84, 0x20), (0x80, 0x82, 0x40),
    (0x80, 0x88, 0x80)] : List (Byte × Byte × Byte)).all
      (fun p => remap config p.1 p.2.1 == p.2.2) = true := by decide

/-- Section 2.4: mixed bytes. -/
theorem test_remap_mixed : ([(0x7E, 0x0D, 0xBE), (0xF5, 0x06, 0x65), (0x13, 0x32, 0x43),
    (0x8A, 0x86, 0x6A), (0xEF, 0xFB, 0xDF), (0x86, 0x89, 0x96)] : List (Byte × Byte × Byte)).all
      (fun p => remap config p.1 p.2.1 == p.2.2) = true := by decide

/-! ### One step of each operation, on the vectors of 95_test_vectors.md section 2 -/

/-- Section 2.5, second row: not gated, everything overwritten (the mask is `BTN_IDLE`, which is open). -/
theorem test_init_bytes : txOf (exec (.init 5 true) (st true 0x6A 0x000F1234)) =
    some [0xC3, 0xC8] := by decide
theorem test_init_dev : devOf (exec (.init 5 true) (st false 0x6A 0x000F1234)) =
    some ⟨true, config.btnIdle, 0⟩ := rfl
/-- Section 2.3. -/
theorem test_set_display_masks : devOf (exec (.setDisplay 0xFFFFFFFF false) (st false 3 0x000F1234)) =
    some ⟨true, 3, 0x0F0FFFFF⟩ := by decide
theorem test_set_display_dropped : txOf (exec (.setDisplay 0x000F5678 false) (st true 3 0x000F1234)) =
    some [] := by decide
/-- Section 2.6. -/
theorem test_get_buttons : replyOf (exec (.getButtons 9) (st true 0xBE 1)) =
    some (.host ⟨.ok, some 0x000000BE⟩) := by decide
theorem test_get_buttons_nodst : replyOf (exec (.getButtonsNodst 9) (st true 0xBE 1)) =
    some (.host ⟨.einval, none⟩) := by decide
theorem test_rsvd0 : replyOf (exec (.rsvd0 9 true) (st true 0xBE 1)) =
    some (.host ⟨.ok, none⟩) := by decide
theorem test_rsvd1 : devOf (exec (.rsvd1 9 true) (st true 0xBE 1)) = some ⟨true, 0xBE, 1⟩ := by decide
theorem test_rsvd2 : txOf (exec (.rsvd2 9 true) (st true 0xBE 1)) = some [] := by decide
theorem test_host_unrecognised : replyOf (exec (.hostUnrecognised 0x06 9 true) (st true 0xBE 1)) =
    some (.host ⟨.eunsupported, none⟩) := by decide
/-- Section 2.4. -/
theorem test_ack : devOf (exec (.ack 0xFF 0xFF) (st true 7 0x000F1234)) =
    some ⟨false, 7, 0x000F1234⟩ := by decide
theorem test_bioc_event : devOf (exec (.biocEvent 0x8A 0x86) (st true 1 0x000F1234)) =
    some ⟨true, 0x6A, 0x000F1234⟩ := by decide
theorem test_reset_open : txOf (exec (.reset 0 0) (st false 7 0x0A0FCAFE)) =
    some [0xC3, 0xC8, 0xC6, 0x0F, 0xE9, 0xF8, 0xEE, 0xF1] := by decide
theorem test_reset_closed : txOf (exec (.reset 0 0) (st true 7 0x000F1234)) =
    some [0xC3, 0xC8] := by decide
theorem test_rx_unrecognised : devOf (exec (.rxUnrecognised 0x44 0x80 0x80) (st true 7 9)) =
    some ⟨true, 7, 9⟩ := by decide
/-- 44_device_init.md R72: by itself the sequence does not set `ack_pending`. -/
theorem test_init_seq : devOf (exec .initSeq (st false 7 9)) = some ⟨false, 7, 9⟩ := by decide
/-- 30_encoding.md R46. -/
theorem test_led_set : txOf (exec (.ledSet 1 2 3 4) (st false 7 9)) =
    some [0xC6, 0x0F, 1, 2, 3, 4] := by decide
/-- 40_display_encoding_rom.md R54: SEGLOOKUP(0x4) = 0x2E. -/
theorem test_seg_lookup : replyOf (exec (.segLookup 4) (st false 7 9)) = some (.rom 0x2E) := by decide
/-- Section 2.7. -/
theorem test_rst : txOf (exec .rst { st true 7 9 with tx := [1, 2] }) = some [] := by decide

/-! ### The step and the words of the opcode table -/

theorem test_step_takes_the_first_input :
    devOf (step { st true 7 9 with inputs := [.inboundPacket 0x40 0 0, .rst] }) =
      some ⟨false, 7, 9⟩ := by decide
theorem test_fetch_word_runs : txOf (step (State.reset.withFetchWord 8 0x01)) =
    some [0xC6, 0x0F, 0, 0, 0, 0] := by decide

/-! ### Witnesses: states and operands that meet the hypotheses of the statements -/

theorem witness_decode_of_encode : config.OpcodesDistinct ∧
    (Instr.hostUnrecognised 0x06 0 true).wellFormedFor config = true ∧
    (Instr.hostUnrecognised 0xFF 0 true).wellFormedFor config = true ∧
    (Instr.rxUnrecognised 0x3F 1 2).wellFormedFor config = true ∧
    (Instr.reset 1 2).wellFormedFor config = true := by decide

theorem witness_encode_of_decode :
    decodeFor config (.inboundPacket 0x47 1 2) = .ok (.rxUnrecognised 0x47 1 2) := by decide

theorem witness_inbound_classifier : config.OpcodesDistinct ∧ (0x40 : Byte) = config.opAck ∧
    (0x41 : Byte) = config.opBiocEvent ∧ (0x46 : Byte) = config.opReset ∧
    (0x42 : Byte) ≠ config.opAck ∧ (0x42 : Byte) ≠ config.opBiocEvent ∧
    (0x42 : Byte) ≠ config.opReset := by decide

theorem witness_host_request : 6 ≤ (0x06 : Byte).toNat ∧ 6 ≤ (0xFF : Byte).toNat := by decide

theorem witness_step_decoded :
    { st true 7 9 with inputs := [.hostRequest 1 3 true] }.inputs = [.hostRequest 1 3 true] ∧
      decode (.hostRequest 1 3 true) = .ok (.setDisplay 3 true) := by decide

theorem witness_nothing_presented : State.reset.inputs = [] := rfl

theorem witness_only_events : State.OnlyEvents
    { st true 7 9 with inputs := [.rst, .hostRequest 0x7F 3 true, .inboundPacket 0xC6 0 0] } := by
  decide

theorem witness_refused : step { st true 7 9 with inputs := [.outboundPacket [0xC6, 0x0E]] } =
    .refused (.undecodable .unknownOutboundPacket) := rfl

theorem witness_run_of_frames :
    (∀ i ∈ [Instr.init 0 false, .ack 0 0, .setDisplay 5 true], i.wellFormed = true) ∧
      { st true 7 9 with
        inputs := [.hostRequest 0 0 false, .inboundPacket 0x40 0 0, .hostRequest 1 5 true, .rst] }.inputs =
        [Instr.init 0 false, .ack 0 0, .setDisplay 5 true].map encode ++ [.rst] := by decide

/-- An ACK closes nothing and keeps every invariant: the shared premises of the step statements. -/
theorem witness_step_from_invariants :
    State.DisplayMasked { st true 7 0x0F0FFFFF with inputs := [.inboundPacket 0x40 0 0] } ∧
    State.OnlyEvents { st true 7 0x0F0FFFFF with inputs := [.inboundPacket 0x40 0 0] } ∧
    step { st true 7 0x0F0FFFFF with inputs := [.inboundPacket 0x40 0 0] } =
      .next (st false 7 0x0F0FFFFF) := ⟨by decide, by decide, rfl⟩

theorem witness_whole_packets : State.WholePackets config
    { st true 7 0x000F1234 with tx := [0xC3, 0xC8, 0xC6, 0x0F, 0x2E, 0x8F, 0xCB, 0x06] } :=
  ⟨[initBytes config, encodeDisplay config 0x000F1234], by decide, by
    intro p hp
    simp only [List.mem_cons, List.not_mem_nil, or_false] at hp
    rcases hp with rfl | rfl
    · exact .inl rfl
    · exact .inr ⟨_, rfl⟩⟩

/-- The gate opens: by an ACK and by `RST`. -/
theorem witness_gate_opens :
    (∃ t, step { st true 7 9 with inputs := [.inboundPacket 0x40 0 0] } = .next t ∧
      t.dev.ackPending = false) ∧
    ∃ t, step { st true 7 9 with inputs := [.rst] } = .next t ∧ t.dev.ackPending = false :=
  ⟨⟨_, rfl, rfl⟩, ⟨_, rfl, rfl⟩⟩

theorem witness_gate_table : (Instr.rst).isEvent = true ∧ (Instr.rst).isRst = true ∧
    (Instr.reset 0 0).isEvent = true ∧ (Instr.reset 0 0).isRst = false := by decide

theorem witness_lost_ack :
    (∀ i ∈ [Instr.setDisplay 1 true, .init 0 true, .reset 0 0, .biocEvent 1 2],
      i.isEvent = true ∧ i.isAck = false ∧ i.isRst = false) ∧
    (st true 7 9).dev.ackPending = true := by decide

theorem witness_led_sets_bounded :
    (Instr.setDisplay 1 true).isEvent = true ∧
    (st false 7 9).tx.length + 6 ≤
      (transition config (.setDisplay 1 true) (st false 7 9)).tx.length ∧
    ∀ i ∈ [Instr.setDisplay 1 true, .ack 0 0, .reset 0 0], i.isEvent = true ∧ i.isRst = false := by
  decide

/-- With a SET_DISPLAY that the gate drops between. -/
theorem witness_replay : (st false 7 9).dev.ackPending = false ∧
    keepsDisplay config [.setDisplay 0x000F5678 true, .biocEvent 1 2, .ack 0 0]
      (transition config (.setDisplay 0x000F1234 true) (st false 7 9)) = true ∧
    (runFor config [.setDisplay 0x000F1234 true, .setDisplay 0x000F5678 true, .biocEvent 1 2,
      .ack 0 0] (st false 7 9)).dev.ackPending = false := by decide

/-- After the ACK the second SET_DISPLAY is sent, and so replaces the display (R59). -/
theorem test_keeps_display_refuses_a_sent_one :
    keepsDisplay config [.ack 0 0, .setDisplay 0x000F5678 true]
      (transition config (.setDisplay 0x000F1234 true) (st false 7 9)) = false := by decide

theorem witness_same_mask : (st false 7 9).dev.buttonMask = (st true 7 0).dev.buttonMask := rfl

theorem witness_simultaneous : (Instr.getButtons 0).isQuery = true ∧ (Instr.ack 0 0).isPacket = true ∧
    (st true 7 9).dev.ackPending = true := by decide

/-- Both branches of the gate. -/
theorem witness_gate_both : (st false 7 9).dev.ackPending = false ∧
    (st true 7 9).dev.ackPending = true := by decide

theorem witness_einval : ∃ t r, exec (.getButtonsNodst 1) (st true 7 9) = .next t ∧
    t.reply = .host r ∧ r.status = .einval ∧ r.status ≠ .ok := ⟨_, _, rfl, rfl, rfl, by decide⟩

theorem witness_unsupported : ∃ t r, exec (.hostUnrecognised 0x06 1 true) (st true 7 9) = .next t ∧
    t.reply = .host r ∧ r.status = .eunsupported ∧ r.status ≠ .ok := ⟨_, _, rfl, rfl, rfl, by decide⟩

/-- Each clause of the response statement at the ends of its range. -/
theorem witness_host_response :
    { st true 7 9 with inputs := [.hostRequest 0x02 1 false] }.inputs = [.hostRequest 0x02 1 false] ∧
    ((0x02 : Byte) = 0x02 ∧ false = false) ∧ 6 ≤ (0x06 : Byte).toNat ∧ ¬6 ≤ (0x05 : Byte).toNat ∧
    { st true 7 9 with inputs := [.hostRequest 0x02 1 true] }.inputs = [.hostRequest 0x02 1 true] ∧
    ((0x02 : Byte) = 0x02 ∧ true = true) := by
  decide

/-- The data clause: req_op 0x02 with a valid destination. -/
theorem witness_host_response_data :
    ∃ t, step { st true 0xBE 9 with inputs := [.hostRequest 0x02 1 true] } = .next t ∧
      t.reply = .host ⟨.ok, some 0x000000BE⟩ := ⟨_, rfl, by decide⟩

/-- Every clause of `SegByte`: inactive, active without and with the decimal point; position 3. -/
theorem witness_seg_byte : config.RomHasNoDp ∧
    (2 : Fin 16).val = (0x0A0F2345 : Word).toNat / 16 ^ (3 : Fin 4).val % 16 ∧
    (0x0A0F2345 : Word).getLsbD (16 + (3 : Fin 4).val) = true ∧
    (0x0A0F2345 : Word).getLsbD (24 + (3 : Fin 4).val) = true ∧
    (0x020F2345 : Word).getLsbD (24 + (3 : Fin 4).val) = false ∧
    (0x0A072345 : Word).getLsbD (16 + (3 : Fin 4).val) = false := by decide

/-- Two DisplayValues that differ only where nothing is rendered. -/
theorem witness_visible_fields :
    (∀ i : Fin 4, (0x0F071234 : Word).getLsbD (16 + i.val) =
      (0xF7F75234 : Word).getLsbD (16 + i.val)) ∧
    ∀ i : Fin 4, (0x0F071234 : Word).getLsbD (16 + i.val) = true →
      (0x0F071234 : Word).getLsbD (24 + i.val) = (0xF7F75234 : Word).getLsbD (24 + i.val) ∧
      ∀ j : Fin 4, (0x0F071234 : Word).getLsbD (4 * i.val + j.val) =
        (0xF7F75234 : Word).getLsbD (4 * i.val + j.val) := by decide

theorem witness_same_entry : memRead config 0xF = memRead config 0xF := rfl

theorem witness_dispatcher :
    { st true 7 9 with inputs := [.inboundPacket 0x40 1 2] }.inputs = [.inboundPacket 0x40 1 2] ∧
      (0x40 : Byte) ≠ config.opReset := by decide

theorem witness_btn_src : config.btnSrc[(0 : Fin 8)].byte = .d1 ∧
    config.btnSrc[(7 : Fin 8)].byte = .d2 := by decide

theorem witness_buttons_permuted : config.ButtonsPermuted := by decide

theorem witness_tag_bits : (0xF5 : Byte) &&& 0x0F = 0x05 &&& 0x0F ∧
    (0x16 : Byte) &&& 0x0F = 0xE6 &&& 0x0F := by decide

/-- The RESET statement's premise with the gate open and closed. -/
theorem witness_reset_packet : (st false 7 0x0F0FFFFF).DisplayMasked ∧
    (st false 7 0x0F0FFFFF).dev.ackPending = false ∧ (st true 7 0x0F0FFFFF).DisplayMasked ∧
    (st true 7 0x0F0FFFFF).dev.ackPending = true := by decide

theorem witness_unrecognised_packet : (0x00 : Byte) ≠ config.opAck ∧
    (0x00 : Byte) ≠ config.opBiocEvent ∧ (0x00 : Byte) ≠ config.opReset := by decide

theorem witness_sends_init_bytes : (Instr.init 0 true).sendsInitBytes = true ∧
    (Instr.reset 0 0).sendsInitBytes = true ∧ (Instr.rst).sendsInitBytes = false ∧
    (Instr.rst).isEvent = true ∧ (Instr.rst).isRst = true ∧ (Instr.ack 0 0).isEvent = true ∧
    (Instr.ack 0 0).sendsInitBytes = false ∧ (Instr.ack 0 0).isRst = false := by decide

theorem witness_rst_first :
    { st true 7 9 with inputs := [.rst, .hostRequest 2 0 true] }.inputs =
      .rst :: [.hostRequest 2 0 true] ∧
    { st false 3 1 with inputs := [.rst, .hostRequest 2 0 true] }.inputs =
      .rst :: [.hostRequest 2 0 true] := by decide

theorem witness_every_event : (Instr.hostUnrecognised 0xFF 1 false).isHostOperation = true ∧
    (Instr.init 0 true).isHostOperation = true ∧ (Instr.rst).isEvent = true ∧
    (Instr.rxUnrecognised 0 0 0).isEvent = true := by decide

/-- A closed gate, and events after the dropped SET_DISPLAY that would send it, were it kept. -/
theorem witness_dropped : (st true 7 9).dev.ackPending = true ∧
    ∀ i ∈ [Instr.ack 0 0, .reset 0 0, .rst], i.isEvent = true := by decide

/-- A ROM that differs from the hardware's in the entry of digit F alone. -/
def romOtherF : Vector Byte 16 := config.segRom.set 15 0x00

/-- A RESET packet at a closed gate renders nothing, whatever it would have rendered. -/
theorem witness_rom_unread : (Instr.reset 0 0).isEvent = true ∧
    (∀ (v : Word) (dst : Bool), Instr.reset 0 0 = .setDisplay v dst →
      (st true 7 9).dev.ackPending = true) ∧
    ∀ d1 d2 : Byte, Instr.reset 0 0 = .reset d1 d2 → (st true 7 9).dev.ackPending = true :=
  ⟨rfl, fun _ _ _ => rfl, fun _ _ _ => rfl⟩

/-- A SET_DISPLAY and a RESET packet that render 1234 at an open gate, and a ROM that really differs. -/
theorem witness_rom_same_value : romOtherF ≠ config.segRom ∧
    (st false 7 0x000F1234).dev.ackPending = false ∧
    (∀ (v : Word) (dst : Bool), Instr.setDisplay 0x000F1234 true = .setDisplay v dst →
      ∀ k : Fin 4, segByte { config with segRom := romOtherF } v k = segByte config v k) ∧
    (∀ d1 d2 : Byte, Instr.setDisplay 0x000F1234 true = .reset d1 d2 → ∀ k : Fin 4,
      segByte { config with segRom := romOtherF } (st false 7 0x000F1234).dev.lastDisplay k =
        segByte config (st false 7 0x000F1234).dev.lastDisplay k) ∧
    (∀ (v : Word) (dst : Bool), Instr.reset 0 0 = .setDisplay v dst →
      ∀ k : Fin 4, segByte { config with segRom := romOtherF } v k = segByte config v k) ∧
    ∀ d1 d2 : Byte, Instr.reset 0 0 = .reset d1 d2 → ∀ k : Fin 4,
      segByte { config with segRom := romOtherF } (st false 7 0x000F1234).dev.lastDisplay k =
        segByte config (st false 7 0x000F1234).dev.lastDisplay k :=
  ⟨by decide, rfl, fun _ _ h => (by cases h; decide), fun _ _ h => (by cases h),
    fun _ _ h => (by cases h), fun _ _ _ => (by decide)⟩

/-- At an open gate the contents of the ROM do reach `tx` (R24 says no more than that). -/
theorem test_rom_read_at_an_open_gate :
    (transition { config with segRom := Vector.replicate 16 0 } (.setDisplay 0x000F1234 true)
      (st false 7 9)).tx = [0xC6, 0x0F, 0x00, 0x00, 0x00, 0x00] := by decide

end Sys2Proof.Tests
end

/-! The statements of the family of 00_scope.md: the parameters' constraints, the step and the run
of frames, `Remap`. -/

namespace Sys2Proof

/-! ### The hardware's parameters meet R8, R9 and R10 -/

/-- 00_scope.md R8 of the hardware's configuration. -/
theorem config_opcodesDistinct : config.OpcodesDistinct := by decide

/-- 00_scope.md R9 of the hardware's configuration. -/
theorem config_romHasNoDp : config.RomHasNoDp := by decide

/-- 00_scope.md R10 of the hardware's configuration. -/
theorem config_buttonsPermuted : config.ButtonsPermuted := by decide

/-- Settles O53: the three constraints, each evaluated on the hardware's values. -/
theorem parametersMeetConstraints : Obligations.ParametersMeetConstraints :=
  ⟨config_opcodesDistinct, config_romHasNoDp, config_buttonsPermuted⟩

/-! ### What the decoder selects -/

section Inbound
variable {c : Config} (d1 d2 : Byte)

@[simp] theorem decodeInboundPacket_opAck :
    decodeInboundPacket c c.opAck d1 d2 = .ack d1 d2 := by
  simp [decodeInboundPacket]

/-- `OP_BIOC_EVENT` comes through the first test because the opcodes are distinct. -/
theorem decodeInboundPacket_opBiocEvent (hc : c.OpcodesDistinct) :
    decodeInboundPacket c c.opBiocEvent d1 d2 = .biocEvent d1 d2 := by
  simp [decodeInboundPacket, hc.1.symm]

/-- `OP_RESET` comes through the first two tests because the opcodes are distinct. -/
theorem decodeInboundPacket_opReset (hc : c.OpcodesDistinct) :
    decodeInboundPacket c c.opReset d1 d2 = .reset d1 d2 := by
  obtain ⟨-, hAckReset, hBiocReset⟩ := hc
  simp [decodeInboundPacket, hAckReset.symm, hBiocReset.symm]

theorem decodeInboundPacket_otherOp {op : Byte} (hAck : op ≠ c.opAck)
    (hBioc : op ≠ c.opBiocEvent) (hReset : op ≠ c.opReset) :
    decodeInboundPacket c op d1 d2 = .rxUnrecognised op d1 d2 := by
  simp [decodeInboundPacket, hAck, hBioc, hReset]

end Inbound

/-- The default row of 30_encoding.md R37. -/
theorem decodeHostRequest_of_six_le {op : Byte} (h : 6 ≤ op.toNat) (arg : Word) (dst : Bool) :
    decodeHostRequest op arg dst = .hostUnrecognised op arg dst := by
  unfold decodeHostRequest
  split
  case h_7 => rfl
  all_goals omega

/-- The frame of a well-formed operation decodes to it (30_encoding.md R37, R41, R45, R46). Only the
inbound opcodes overlap without 00_scope.md R8, only the default rows need well-formedness. -/
theorem decodeFor_encodeFor {c : Config} (hc : c.OpcodesDistinct) {i : Instr}
    (hi : i.wellFormedFor c = true) : decodeFor c (encodeFor c i) = .ok i := by
  cases i with
  | hostUnrecognised op arg dst =>
    exact congrArg Except.ok (decodeHostRequest_of_six_le (of_decide_eq_true hi) arg dst)
  | ack d1 d2 => exact congrArg Except.ok (decodeInboundPacket_opAck d1 d2)
  | biocEvent d1 d2 => exact congrArg Except.ok (decodeInboundPacket_opBiocEvent d1 d2 hc)
  | reset d1 d2 => exact congrArg Except.ok (decodeInboundPacket_opReset d1 d2 hc)
  | rxUnrecognised op d1 d2 =>
    simp only [Instr.wellFormedFor, Bool.and_eq_true, bne_iff_ne] at hi
    obtain ⟨⟨hAck, hBioc⟩, hReset⟩ := hi
    exact congrArg Except.ok (decodeInboundPacket_otherOp d1 d2 hAck hBioc hReset)
  | initSeq => simp [encodeFor, decodeFor, decodeOutboundPacket]
  | ledSet seg0 seg1 seg2 seg3 => simp [encodeFor, decodeFor, decodeOutboundPacket]
  | _ => rfl

/-- The same on this hardware. -/
theorem decode_encode {i : Instr} (hi : i.wellFormed = true) : decode (encode i) = .ok i :=
  decodeFor_encodeFor config_opcodesDistinct hi

end Sys2Proof

namespace Sys2Proof.Machine

/-! ### The step and the run of frames -/

/-- Settles O6: on a first frame that decodes, both branches of `step` are determined. -/
theorem stepCarriesOutDecodedFrame : Obligations.StepCarriesOutDecodedFrame := by
  intro s inp rest i hs hd
  rw [step_decoded hs hd, exec_eq_transition]

/-- A step that finds the frame of a well-formed operation first is its transition, with the frame
taken off. -/
theorem step_encode {s : State} {i : Instr} {rest : List Input} (hi : i.wellFormed = true)
    (hs : s.inputs = encode i :: rest) :
    step s = .next { transition config i s with inputs := rest } := by
  rw [step_decoded hs (decode_encode hi), transition_withInputs]

/-- Settles O10, by induction on the operations: one step carries out the first of them
(`step_encode`), and what is still to come does not influence the rest of the run. -/
theorem runOfFramesIsRunOfTransitions : Obligations.RunOfFramesIsRunOfTransitions := by
  intro is rest
  induction is with
  | nil =>
    rintro s - rfl
    rfl
  | cons i is ih =>
    intro s hwf hs
    rw [List.forall_mem_cons] at hwf
    obtain ⟨hi, his⟩ := hwf
    have hstep : Sys2Proof.core.step s = .next _ := step_encode hi hs
    rw [List.length_cons, run_succ _ _ hstep, ih _ his rfl, runFor_withInputs, runFor_cons]

/-! ### Remap reorders the raw bits -/

/-- A raw bit is a bit of the byte its source names (30_encoding.md R43). -/
theorem rawBit_eq_getLsbD (r : RawBit) (d1 d2 : Byte) :
    rawBit r d1 d2 = (if r.byte = .d1 then d1 else d2).getLsbD r.bit.val := by
  obtain ⟨b, k⟩ := r
  cases b <;> rfl

/-- A data byte with given raw bits in its low nibble. -/
def dataByteOf (f : RawBit → Bool) (b : DataByte) : Byte :=
  (BitVec.ofFnLE fun k : Fin 4 => f ⟨b, k⟩).setWidth 8

theorem dataByteOf_getLsbD (f : RawBit → Bool) (b : DataByte) (k : Fin 4) :
    (dataByteOf f b).getLsbD k.val = f ⟨b, k⟩ := by
  have hk : k.val < 8 := by omega
  simp [dataByteOf, hk]

/-- The eight raw bits are independent: some pair of bytes has any given values of them. -/
@[simp] theorem rawBit_dataByteOf (f : RawBit → Bool) (r : RawBit) :
    rawBit r (dataByteOf f .d1) (dataByteOf f .d2) = f r := by
  obtain ⟨b, k⟩ := r
  cases b <;> exact dataByteOf_getLsbD f _ k

/-- Two sources that always have one value are one source: the bytes in which the second raw bit
alone is set tell it from the others. -/
theorem rawBit_eq_forall_iff {r q : RawBit} :
    (∀ d1 d2 : Byte, rawBit r d1 d2 = rawBit q d1 d2) ↔ r = q := by
  constructor
  · intro h
    simpa using h (dataByteOf (fun x => decide (x = q)) .d1)
      (dataByteOf (fun x => decide (x = q)) .d2)
  · rintro rfl _ _
    rfl

/-- The low nibbles are the raw bits, all of them. -/
theorem low_nibbles_eq_iff_rawBit (d1 d2 e1 e2 : Byte) :
    (d1 &&& 0x0F = e1 &&& 0x0F ∧ d2 &&& 0x0F = e2 &&& 0x0F) ↔
      ∀ r : RawBit, rawBit r d1 d2 = rawBit r e1 e2 := by
  rw [low_nibble_eq_iff, low_nibble_eq_iff]
  constructor
  · rintro ⟨h1, h2⟩ ⟨b, k⟩
    cases b
    · exact h1 k
    · exact h2 k
  · exact fun h => ⟨fun k => h ⟨.d1, k⟩, fun k => h ⟨.d2, k⟩⟩

/-- A mask is the `Remap` of two bytes exactly when each of its bits is the raw bit it stands for. -/
theorem remap_eq_iff {c : Config} {d1 d2 m : Byte} :
    remap c d1 d2 = m ↔ ∀ k : Fin 8, rawBit c.btnSrc[k] d1 d2 = m.getLsbD k.val := by
  constructor
  · rintro rfl k
    exact (remap_getLsbD c d1 d2 k).symm
  · exact fun h => BitVec.eq_of_getLsbD_eq fun k hk =>
      (remap_getLsbD c d1 d2 ⟨k, hk⟩).trans (h ⟨k, hk⟩)

section Permuted
variable {c : Config} (hc : c.ButtonsPermuted)
include hc

/-- 00_scope.md R10: every raw bit is the source of some mask bit. -/
theorem exists_btnSrc_eq (r : RawBit) : ∃ k : Fin 8, c.btnSrc[k] = r :=
  hc.2 r (mem_rawBit_all r)

/-- Each raw bit is exactly one mask bit: none is dropped, none duplicated. -/
theorem existsUnique_maskBit (r : RawBit) :
    ∃! k : Fin 8, ∀ d1 d2 : Byte, (remap c d1 d2).getLsbD k.val = rawBit r d1 d2 := by
  simp only [remap_getLsbD, rawBit_eq_forall_iff]
  obtain ⟨k, hk⟩ := exists_btnSrc_eq hc r
  exact ⟨k, hk, fun j hj => hc.1 j k (hj.trans hk.symm)⟩

/-- Every mask is reached: give each raw bit the mask bit whose source it is. -/
theorem exists_remap_eq (m : Byte) : ∃ d1 d2 : Byte, remap c d1 d2 = m := by
  choose pos hpos using exists_btnSrc_eq hc
  have hback : ∀ k : Fin 8, pos c.btnSrc[k] = k := fun k => hc.1 _ _ (hpos _)
  refine ⟨dataByteOf (fun r => m.getLsbD (pos r).val) .d1,
    dataByteOf (fun r => m.getLsbD (pos r).val) .d2, remap_eq_iff.2 fun k => ?_⟩
  rw [rawBit_dataByteOf, hback]

/-- `Remap` reads every raw bit and nothing else. -/
theorem remap_eq_remap_iff_rawBit (d1 d2 e1 e2 : Byte) :
    remap c d1 d2 = remap c e1 e2 ↔ ∀ r : RawBit, rawBit r d1 d2 = rawBit r e1 e2 := by
  simp only [remap_eq_iff, remap_getLsbD]
  constructor
  · intro h r
    obtain ⟨k, rfl⟩ := exists_btnSrc_eq hc r
    exact h k
  · exact fun h k => h _

end Permuted

/-- Settles O44: mask bit k is the raw bit `BTN_SRC[k]`, and a permuted `BTN_SRC` makes the mask
bits the raw bits one for one. -/
theorem remapIsAPermutation : Obligations.RemapIsAPermutation := by
  intro c hc
  refine ⟨fun k d1 d2 => ?_, fun b => existsUnique_maskBit hc ⟨.d1, b⟩,
    fun b => existsUnique_maskBit hc ⟨.d2, b⟩, exists_remap_eq hc, fun d1 d2 e1 e2 => ?_⟩
  · rw [remap_getLsbD, rawBit_eq_getLsbD]
  · rw [remap_eq_remap_iff_rawBit hc, low_nibbles_eq_iff_rawBit]

end Sys2Proof.Machine

/-! The statements of the family of 10_state.md: the elements after reset, what is kept of
`last_display`, what is rendered of a DisplayValue, who writes `button_mask`. -/

namespace Sys2Proof.Machine

/-! ### The undefined bits of `last_display` -/

/-- An operation that replaces `last_display` writes a value whose undefined bits are 0, whatever
stood there: blank, or a masked DisplayValue (10_state.md R16). -/
theorem transition_displayMasked_of_replaces (c : Config) {i : Instr} {s : State}
    (hi : i.replacesDisplay s.dev.ackPending = true) : (transition c i s).DisplayMasked := by
  cases i with
  | init _ _ => exact BitVec.zero_and
  | rst => exact BitVec.zero_and
  | setDisplay v _ =>
    have h : s.dev.ackPending = false := by simpa [Instr.replacesDisplay] using hi
    rw [transition, setDisplayOp_open c v h]
    exact maskDisplay_undefined v
  | _ => cases hi

/-- Every operation keeps the undefined bits 0: it writes a masked value or it leaves the old one. -/
theorem transition_displayMasked (c : Config) (i : Instr) {s : State} (hm : s.DisplayMasked) :
    (transition c i s).DisplayMasked := by
  cases hi : i.replacesDisplay s.dev.ackPending with
  | true => exact transition_displayMasked_of_replaces c hi
  | false =>
    rw [State.DisplayMasked, transition_lastDisplay c hi hm]
    exact hm

/-- Settles O11: a step does nothing or carries out one operation (`step_next_cases`), and an
operation keeps the undefined bits 0 whatever is still to come. -/
theorem stepKeepsUndefinedDisplayBitsZero : Obligations.StepKeepsUndefinedDisplayBitsZero := by
  intro s t hm h
  obtain ⟨-, rfl⟩ | ⟨inp, rest, i, -, -, rfl⟩ := step_next_cases h
  · exact hm
  · exact transition_displayMasked config i hm

/-! ### Who writes `button_mask` -/

/-- What one operation leaves in `button_mask`: the value it writes, or the old one
(10_state.md R15). -/
theorem transition_buttonMask (c : Config) (i : Instr) (s : State) :
    (transition c i s).dev.buttonMask = (i.maskWritten c).getD s.dev.buttonMask := by
  cases i with
  | setDisplay v _ => exact State.gatedBuildAndSend_buttonMask c v s
  | reset _ _ => exact State.gatedBuildAndSend_buttonMask c _ (s.transmit (initBytes c))
  | _ => rfl

/-- Settles O19, by induction on the operations: what the first of them leaves is what the rest of
the run falls back on. -/
theorem buttonMaskIsLastWritten : Obligations.ButtonMaskIsLastWritten := by
  intro c is
  induction is with
  | nil => exact fun s => rfl
  | cons i is ih =>
    intro s
    rw [runFor_cons, ih, transition_buttonMask, List.reverse_cons, List.findSome?_append,
      List.findSome?_singleton, Option.getD_or]

/-! ### What is rendered and what is stored of a DisplayValue -/

/-- Packet byte 2+i is position i (30_encoding.md R46, D10). -/
theorem encodeDisplay_getElem? (c : Config) (dv : Word) (i : Fin 4) :
    (encodeDisplay c dv)[2 + i.val]? = some (segByte c dv i) := by
  fin_cases i <;> rfl

/-- Masking leaves every defined bit as it is (30_encoding.md R39). -/
theorem maskDisplay_getLsbD_of_defined (v : Word) {k : Nat} (hk : displayMask.getLsbD k = true) :
    (maskDisplay v).getLsbD k = v.getLsbD k := by
  rw [maskDisplay_getLsbD, hk, Bool.and_true]

/-- The bits of every position, of its digit, active bit and decimal point, are defined bits
(30_encoding.md R40, D10). -/
theorem displayMask_position (i j : Fin 4) :
    displayMask.getLsbD (4 * i.val + j.val) = true ∧ displayMask.getLsbD (16 + i.val) = true ∧
      displayMask.getLsbD (24 + i.val) = true := by
  revert i j
  decide

/-- Settles O38: the packet's bytes are those of `SegByte`, and the value a SET_DISPLAY stores
through the open gate is masked, which keeps the bits of every position. -/
theorem inactivePositionsAreBlank : Obligations.InactivePositionsAreBlank := by
  refine ⟨fun c dv i => ⟨fun h => ?_, fun h => ?_⟩, fun s v dst hs => ?_⟩
  · rw [encodeDisplay_getElem?, segByte_inactive c h]
  · rw [encodeDisplay_getElem?, segByte_active c h]
    rfl
  · refine ⟨_, exec_eq_transition _ s, fun i j => ?_⟩
    rw [transition, setDisplayOp_open config v hs]
    obtain ⟨hdigit, hactive, hdp⟩ := displayMask_position i j
    exact ⟨maskDisplay_getLsbD_of_defined v hdigit, maskDisplay_getLsbD_of_defined v hactive,
      maskDisplay_getLsbD_of_defined v hdp⟩

/-! ### No event, and the state after reset -/

/-- Settles O7: `step_nil` says it. -/
theorem stepWithNothingPresentedStaysPut : Obligations.StepWithNothingPresentedStaysPut :=
  fun _ h => step_nil h

/-- Settles O13: `last_display` is 0, `tx` holds no packet, no event is to come. -/
theorem resetMeetsTheInvariants : Obligations.ResetMeetsTheInvariants :=
  ⟨BitVec.zero_and, ⟨[], rfl, List.forall_mem_nil _⟩, List.forall_mem_nil _⟩

/-- Settles O52: the elements are the reset values of 10_state.md R22, `tx` is empty. -/
theorem resetStateValues : Obligations.ResetStateValues :=
  ⟨DeviceState.resetFor_ackPending config, DeviceState.resetFor_buttonMask config,
    DeviceState.resetFor_lastDisplay config, rfl⟩

end Sys2Proof.Machine

/-! The statements of the family of 20_memory.md: frames and the operations they decode to, every
event completes, the ROM is read through an open gate only, `tx` is a sequence of whole packets. -/

namespace Sys2Proof

/-! ### What a frame decodes to encodes to that frame -/

/-- The rows of 30_encoding.md R37: one of the six listed numbers, or the default row. -/
theorem reqOp_cases (op : Byte) :
    op = 0x00 ∨ op = 0x01 ∨ op = 0x02 ∨ op = 0x03 ∨ op = 0x04 ∨ op = 0x05 ∨ 6 ≤ op.toNat := by
  bv_omega

theorem encodeFor_decodeHostRequest (c : Config) (op : Byte) (arg : Word) (dst : Bool) :
    encodeFor c (decodeHostRequest op arg dst) = .hostRequest op arg dst ∧
      (decodeHostRequest op arg dst).wellFormedFor c = true := by
  rcases reqOp_cases op with rfl | rfl | rfl | rfl | rfl | rfl | h
  case inr.inr.inl => cases dst <;> exact ⟨rfl, rfl⟩
  case inr.inr.inr.inr.inr.inr =>
    rw [decodeHostRequest_of_six_le h]
    exact ⟨rfl, decide_eq_true h⟩
  all_goals exact ⟨rfl, rfl⟩

theorem encodeFor_decodeInboundPacket (c : Config) (op d1 d2 : Byte) :
    encodeFor c (decodeInboundPacket c op d1 d2) = .inboundPacket op d1 d2 ∧
      (decodeInboundPacket c op d1 d2).wellFormedFor c = true := by
  unfold decodeInboundPacket
  split_ifs with hAck hBioc hReset
  · exact ⟨by rw [hAck]; rfl, rfl⟩
  · exact ⟨by rw [hBioc]; rfl, rfl⟩
  · exact ⟨by rw [hReset]; rfl, rfl⟩
  · exact ⟨rfl, by simp [Instr.wellFormedFor, hAck, hBioc, hReset]⟩

theorem encodeFor_decodeOutboundPacket {c : Config} {bytes : List Byte} {i : Instr}
    (h : decodeOutboundPacket c bytes = .ok i) :
    encodeFor c i = .outboundPacket bytes ∧ i.wellFormedFor c = true := by
  obtain ⟨rfl, hd⟩ | ⟨x0, x1, x2, x3, rfl, hd⟩ | ⟨-, -, hd⟩ := decodeOutboundPacket_cases c bytes
  all_goals cases hd.symm.trans h
  · exact ⟨rfl, rfl⟩
  · exact ⟨rfl, rfl⟩

/-- Settles O2, port by port: the decoder answers an operation that keeps every field of the frame. -/
theorem encodeOfDecodeGivesBackFrame : Obligations.EncodeOfDecodeGivesBackFrame := by
  intro c inp i h
  cases inp with
  | outboundPacket bytes => exact encodeFor_decodeOutboundPacket h
  | hostRequest op arg dst =>
    cases h
    exact encodeFor_decodeHostRequest c op arg dst
  | inboundPacket op d1 d2 =>
    cases h
    exact encodeFor_decodeInboundPacket c op d1 d2
  | rst | romRead =>
    cases h
    exact ⟨rfl, rfl⟩

/-- What an event's frame decodes to is an event (00_scope.md R6). -/
theorem isEvent_of_decodeFor {c : Config} {inp : Input} {i : Instr} (hinp : inp.isEvent = true)
    (hd : decodeFor c inp = .ok i) : i.isEvent = true := by
  obtain ⟨j, hj, hev⟩ := decodeFor_event c hinp
  cases hd.symm.trans hj
  exact hev

end Sys2Proof

namespace Sys2Proof.Machine

/-! ### Every event completes -/

/-- A host operation answers a host response (30_encoding.md R38). -/
theorem transition_reply_of_isHostOperation (c : Config) {i : Instr} (s : State)
    (hi : i.isHostOperation = true) : ∃ r : Response, (transition c i s).reply = .host r := by
  cases i with
  | ack | biocEvent | reset | rxUnrecognised | initSeq | ledSet | segLookup | rst => cases hi
  | _ => exact ⟨_, rfl⟩

/-- Settles O54: every operation completes with its transition (`exec_eq_transition`). -/
theorem everyEventCompletesInOneStep : Obligations.EveryEventCompletesInOneStep := by
  refine ⟨fun i s hi => ?_, fun i s _ => ⟨_, exec_eq_transition i s⟩⟩
  obtain ⟨r, hr⟩ := transition_reply_of_isHostOperation config s hi
  exact ⟨_, r, exec_eq_transition i s, hr⟩

/-! ### The ROM is read through an open gate only -/

/-- `Encode` reads the ROM through the four `SegByte`s only (41_command_encoder.md R55, R56). -/
theorem encodeDisplay_withRom_congr {c : Config} {rom : Vector Byte 16} {v : Word}
    (h : ∀ k : Fin 4, segByte { c with segRom := rom } v k = segByte c v k) :
    encodeDisplay { c with segRom := rom } v = encodeDisplay c v := by
  simp only [encodeDisplay, ledSetPacket, h]

@[simp] theorem State.gatedBuildAndSend_reply (c : Config) (v : Word) (s : State) :
    (s.gatedBuildAndSend c v).reply = s.reply := by
  unfold State.gatedBuildAndSend
  split <;> rfl

/-- What the gate lets through to the elements does not depend on the configuration. -/
theorem State.gatedBuildAndSend_dev_congr (c c' : Config) (v : Word) (s : State) :
    (s.gatedBuildAndSend c v).dev = (s.gatedBuildAndSend c' v).dev := by
  unfold State.gatedBuildAndSend
  split <;> rfl

/-- `BuildAndSend` behind the gate reads the configuration through `Encode` only, and a closed gate
not even so (42_flow_control_gate.md R59, R60). -/
theorem State.gatedBuildAndSend_congr {c c' : Config} {v : Word} {s : State}
    (h : s.dev.ackPending = false → encodeDisplay c v = encodeDisplay c' v) :
    s.gatedBuildAndSend c v = s.gatedBuildAndSend c' v := by
  cases hs : s.dev.ackPending with
  | true => rw [gatedBuildAndSend_closed c v hs, gatedBuildAndSend_closed c' v hs]
  | false =>
    rw [gatedBuildAndSend_open c v hs, gatedBuildAndSend_open c' v hs, buildAndSend_eq,
      buildAndSend_eq, h hs]

section OtherRom
variable (c : Config) (rom : Vector Byte 16) {i : Instr} {s : State}

/-- No operation's elements depend on the ROM. -/
theorem transition_withRom_dev :
    (transition { c with segRom := rom } i s).dev = (transition c i s).dev := by
  cases i with
  | setDisplay v _ => exact State.gatedBuildAndSend_dev_congr _ c v s
  | reset _ _ => exact State.gatedBuildAndSend_dev_congr _ c _ (s.transmit (initBytes c))
  | _ => rfl

/-- No event's response depends on the ROM. -/
theorem transition_withRom_reply (hi : i.isEvent = true) :
    (transition { c with segRom := rom } i s).reply = (transition c i s).reply := by
  cases i with
  | initSeq | ledSet | segLookup => cases hi
  | _ => rfl

/-- With another ROM an event is the same if the packet it renders at an open gate, of a
SET_DISPLAY's argument or of the `last_display` a RESET packet replays, is the same. -/
theorem transition_withRom_congr (hi : i.isEvent = true)
    (hset : ∀ (v : Word) (dst : Bool), i = .setDisplay v dst → s.dev.ackPending = false →
      encodeDisplay { c with segRom := rom } v = encodeDisplay c v)
    (hreset : ∀ d1 d2 : Byte, i = .reset d1 d2 → s.dev.ackPending = false →
      encodeDisplay { c with segRom := rom } s.dev.lastDisplay =
        encodeDisplay c s.dev.lastDisplay) :
    transition { c with segRom := rom } i s = transition c i s := by
  cases i with
  | setDisplay v dst =>
    exact congrArg (State.respond .ok none) (State.gatedBuildAndSend_congr (hset v dst rfl))
  | reset d1 d2 =>
    exact congrArg (State.answer .none)
      (State.gatedBuildAndSend_congr (s := s.transmit (initBytes c)) (hreset d1 d2 rfl))
  | initSeq | ledSet | segLookup => cases hi
  | _ => rfl

end OtherRom

/-- Settles O56: at a closed gate nothing is rendered, and what is rendered at an open one is the
same if the four `SegByte`s are. -/
theorem romIsReadOnlyThroughAnOpenGate : Obligations.RomIsReadOnlyThroughAnOpenGate := by
  intro c rom i s hi
  refine ⟨fun hset hreset => ?_, transition_withRom_dev c rom, transition_withRom_reply c rom hi,
    fun hset hreset => ?_⟩
  · refine transition_withRom_congr c rom hi (fun v dst h hopen => ?_) (fun d1 d2 h hopen => ?_)
    · cases hopen.symm.trans (hset v dst h)
    · cases hopen.symm.trans (hreset d1 d2 h)
  · exact transition_withRom_congr c rom hi
      (fun v dst h _ => encodeDisplay_withRom_congr (hset v dst h))
      (fun d1 d2 h _ => encodeDisplay_withRom_congr (hreset d1 d2 h))

/-! ### `tx` is a sequence of whole packets -/

/-- Sending one whole packet more leaves a sequence of whole packets (20_memory.md R33). -/
theorem State.WholePackets.transmit {c : Config} {s : State} {p : List Byte}
    (hs : s.WholePackets c) (hp : IsPacket c p) : (s.transmit p).WholePackets c := by
  obtain ⟨ps, htx, hps⟩ := hs
  refine ⟨ps ++ [p], by simp [htx], ?_⟩
  rw [List.forall_mem_append, List.forall_mem_singleton]
  exact ⟨hps, hp⟩

theorem State.WholePackets.transmit_initBytes {c : Config} {s : State} (hs : s.WholePackets c) :
    (s.transmit (initBytes c)).WholePackets c :=
  hs.transmit (.inl rfl)

/-- `BuildAndSend` behind the gate sends one LED-set packet or nothing. -/
theorem State.WholePackets.gatedBuildAndSend {c : Config} {s : State} (hs : s.WholePackets c)
    (v : Word) : (s.gatedBuildAndSend c v).WholePackets c := by
  unfold State.gatedBuildAndSend
  split
  · exact hs.transmit (.inr ⟨maskDisplay v, rfl⟩)
  · exact hs

/-- An event sends whole packets, or restarts the trace. A bare LED_SET, which is no event, may send
segment bytes of no DisplayValue. -/
theorem transition_wholePackets (c : Config) {i : Instr} {s : State} (hi : i.isEvent = true)
    (hs : s.WholePackets c) : (transition c i s).WholePackets c := by
  cases i with
  | init _ _ => exact hs.transmit_initBytes
  | setDisplay v _ => exact hs.gatedBuildAndSend v
  | reset _ _ => exact hs.transmit_initBytes.gatedBuildAndSend s.dev.lastDisplay
  | rst => exact ⟨[], rfl, List.forall_mem_nil _⟩
  | initSeq | ledSet | segLookup => cases hi
  | _ => exact hs

/-- Settles O12: a step does nothing or carries out what the first frame decodes to
(`step_next_cases`), which is an event, since only events are to come. -/
theorem stepKeepsTxInWholePackets : Obligations.StepKeepsTxInWholePackets := by
  intro s t hev htx h
  obtain ⟨u, hu, hevu⟩ := step_onlyEvents hev
  cases hu.symm.trans h
  refine ⟨?_, hevu⟩
  obtain ⟨-, rfl⟩ | ⟨inp, rest, i, hin, hd, rfl⟩ := step_next_cases h
  · exact htx
  · have hinp : inp.isEvent = true := hev inp (by rw [hin]; exact List.mem_cons_self)
    exact transition_wholePackets config (isEvent_of_decodeFor hinp hd) htx

end Sys2Proof.Machine

/-! The statements of the family of 30_encoding.md: frames and the operations they stand for, the
frames a step refuses, the host response, and what an operation ignores of its frame. -/

namespace Sys2Proof

/-! ### The operation a frame selects -/

/-- Settles O1: `decodeFor_encodeFor` goes through the sixteen operations. -/
theorem decodeOfEncodeGivesBackOperation : Obligations.DecodeOfEncodeGivesBackOperation :=
  fun _ hc _ hi => decodeFor_encodeFor hc hi

/-- Settles O3: each opcode fails the tests before its own, because the opcodes are distinct. -/
theorem inboundClassifierNeedsNoOrder : Obligations.InboundClassifierNeedsNoOrder := by
  intro c hc op d1 d2
  refine ⟨?ack, ?bioc, ?reset, fun hAck hBioc hReset => ?other⟩
  case ack =>
    rintro rfl
    exact congrArg Except.ok (decodeInboundPacket_opAck d1 d2)
  case bioc =>
    rintro rfl
    exact congrArg Except.ok (decodeInboundPacket_opBiocEvent d1 d2 hc)
  case reset =>
    rintro rfl
    exact congrArg Except.ok (decodeInboundPacket_opReset d1 d2 hc)
  case other => exact congrArg Except.ok (decodeInboundPacket_otherOp d1 d2 hAck hBioc hReset)

/-- Settles O4: the listed numbers select their rows by evaluation, the rest the default row. -/
theorem hostRequestSelectsOperation : Obligations.HostRequestSelectsOperation :=
  fun arg dst => ⟨rfl, rfl, rfl, rfl, rfl, rfl, rfl,
    fun _ h => congrArg Except.ok (decodeHostRequest_of_six_le h arg dst)⟩

/-- Settles O5: each word evaluated. -/
theorem tableWordsDecode : Obligations.TableWordsDecode := by
  refine ⟨?_, ?_, ?_, ?_, ?_, ?_, ?_⟩ <;> decide

/-- The decoder rejects only an outbound frame, and only one that is neither outbound packet
(30_encoding.md R45, R46, R48). -/
theorem decodeFor_error_cases {c : Config} {inp : Input} {e : DecodeError}
    (h : decodeFor c inp = .error e) :
    ∃ bytes, inp = .outboundPacket bytes ∧ bytes ≠ [c.cmdBiocOn, c.cmdLedUsr] ∧
      (∀ x0 x1 x2 x3 : Byte, bytes ≠ [c.cmdLedSet, c.ledMaskAll, x0, x1, x2, x3]) ∧
      e = .unknownOutboundPacket := by
  cases inp with
  | outboundPacket bytes =>
    obtain ⟨-, hd⟩ | ⟨_, _, _, _, -, hd⟩ | ⟨hInit, hLed, hd⟩ := decodeOutboundPacket_cases c bytes
    all_goals cases hd.symm.trans h
    exact ⟨bytes, rfl, hInit, hLed, rfl⟩
  | rst | hostRequest | inboundPacket | romRead => cases h

end Sys2Proof

namespace Sys2Proof.Machine

/-! ### What a step refuses -/

/-- A step that refuses found a frame it cannot decode: no operation's meaning refuses. -/
theorem step_refused_cases {s : State} {r : Refusal} (h : step s = .refused r) :
    ∃ inp rest e, s.inputs = inp :: rest ∧ decode inp = .error e ∧ r = .undecodable e := by
  cases hs : s.inputs with
  | nil => cases (step_nil hs).symm.trans h
  | cons inp rest =>
    cases hd : decode inp with
    | ok i => cases (step_decoded hs hd).symm.trans h
    | error e =>
      cases (step_undecoded hs hd).symm.trans h
      exact ⟨inp, rest, e, rfl, hd, rfl⟩

/-- Settles O9: a refusal comes from a frame the decoder rejects (`step_refused_cases`), and it
rejects outbound frames only (`decodeFor_error_cases`). -/
theorem onlyBareOutboundFramesAreRefused : Obligations.OnlyBareOutboundFramesAreRefused := by
  intro s r h
  obtain ⟨inp, rest, e, hs, hd, rfl⟩ := step_refused_cases h
  obtain ⟨bytes, rfl, hInit, hLed, rfl⟩ := decodeFor_error_cases hd
  exact ⟨bytes, rest, hs, hInit, hLed, rfl⟩

/-! ### The host response -/

/-- The response to a host request with the given `req_op` and `req_dst_valid`, `m` in `button_mask`
(30_encoding.md R38, 60_exceptions.md R77); `transition_decodeHostRequest_reply` ties it to the
operations. -/
def requestResponse (op : Byte) (dst : Bool) (m : Byte) : Response :=
  if op = 0x02 then
    if dst then ⟨.ok, some (zext32 m)⟩ else ⟨.einval, none⟩
  else if 6 ≤ op.toNat then ⟨.eunsupported, none⟩ else ⟨.ok, none⟩

/-- The operation a host request selects answers by the request and the mask alone. -/
theorem transition_decodeHostRequest_reply (c : Config) (op : Byte) (arg : Word) (dst : Bool)
    (s : State) : (transition c (decodeHostRequest op arg dst) s).reply =
      .host (requestResponse op dst s.dev.buttonMask) := by
  rcases reqOp_cases op with rfl | rfl | rfl | rfl | rfl | rfl | h
  case inr.inr.inl => cases dst <;> rfl
  case inr.inr.inr.inr.inr.inr =>
    have h2 : op ≠ 0x02 := by rintro rfl; exact absurd h (by decide)
    rw [decodeHostRequest_of_six_le h, requestResponse, if_neg h2, if_pos h]
    rfl
  all_goals rfl

section RequestResponse
variable (op : Byte) (dst : Bool) (m : Byte)

/-- `EINVAL` is for 0x02 without a destination, `EUNSUPPORTED` for the numbers from 0x06 on, `OK`
for the rest (30_encoding.md R38, D3). -/
theorem requestResponse_code :
    (requestResponse op dst m).status.code =
      if op = 0x02 ∧ dst = false then 1 else if 6 ≤ op.toNat then 2 else 0 := by
  unfold requestResponse
  by_cases h2 : op = 0x02
  · subst h2
    cases dst <;> rfl
  · simp only [h2, if_false, false_and]
    split <;> rfl

/-- Only 0x02 with a destination is answered with data (30_encoding.md R38, D19). -/
theorem requestResponse_data :
    (requestResponse op dst m).data =
      if op = 0x02 ∧ dst = true then some (zext32 m) else none := by
  unfold requestResponse
  by_cases h2 : op = 0x02
  · subst h2
    cases dst <;> rfl
  · simp only [h2, if_false, false_and]
    split <;> rfl

end RequestResponse

/-- A code chosen by two conditions that exclude each other tells which of them holds. -/
theorem code_ite_iff {p q : Prop} [Decidable p] [Decidable q] (hpq : p → ¬q) {k : BitVec 2}
    (hk : k = if p then 1 else if q then 2 else 0) :
    (k = 1 ↔ p) ∧ (k = 2 ↔ q) ∧ (k = 0 ↔ ¬p ∧ ¬q) ∧ k ≠ 3 := by
  subst hk
  by_cases hp : p
  · have hq := hpq hp
    simp [hp, hq]
  · by_cases hq : q <;> simp [hp, hq]

/-- Settles O32: the step carries out the operation the request selects, which answers
`requestResponse`; 0x02 is none of the numbers from 0x06 on, so the code tells the request's
kind. -/
theorem hostResponseFollowsRequest : Obligations.HostResponseFollowsRequest := by
  intro s op arg dst rest hs
  have hexcl : op = 0x02 ∧ dst = false → ¬6 ≤ op.toNat := by
    rintro ⟨rfl, -⟩
    decide
  have hdata := requestResponse_data op dst s.dev.buttonMask
  obtain ⟨hone, htwo, hzero, hthree⟩ :=
    code_ite_iff hexcl (requestResponse_code op dst s.dev.buttonMask)
  exact ⟨_, requestResponse op dst s.dev.buttonMask, step_decoded hs rfl,
    transition_decodeHostRequest_reply config op arg dst _, transition_inputs config _ _,
    hone, htwo, hzero, hthree, fun hop hdst => hdata.trans (if_pos ⟨hop, hdst⟩),
    fun h => hdata.trans (if_neg h)⟩

/-! ### What an operation ignores of its frame -/

/-- `Remap` reads bits 3:0 of the data bytes only, whatever `BTN_SRC` is (30_encoding.md R43). -/
theorem remap_congr_low_nibbles (c : Config) {d1 d2 e1 e2 : Byte}
    (h1 : d1 &&& 0x0F = e1 &&& 0x0F) (h2 : d2 &&& 0x0F = e2 &&& 0x0F) :
    remap c d1 d2 = remap c e1 e2 := by
  have hraw := (low_nibbles_eq_iff_rawBit d1 d2 e1 e2).1 ⟨h1, h2⟩
  simp only [remap, hraw]

/-- Settles O45: a BIOC_EVENT reads its bytes through `Remap` only. -/
theorem tagAndReservedBitsIgnored : Obligations.TagAndReservedBitsIgnored := by
  intro s d1 d2 e1 e2 h1 h2
  refine ⟨_, exec_eq_transition _ s, ?_⟩
  rw [exec_eq_transition, transition, transition, biocEventOp, biocEventOp,
    remap_congr_low_nibbles config h1 h2]

/-- Settles O34: no operation of these rows names the fields in its meaning. -/
theorem ignoredFieldsNeverMatter : Obligations.IgnoredFieldsNeverMatter :=
  fun _ _ _ _ _ _ _ _ _ _ _ => ⟨rfl, rfl, rfl, rfl, rfl, rfl, rfl, rfl, rfl, rfl, rfl⟩

/-! ### The LED-set packet by itself -/

/-- An LED-set packet decodes to the LED_SET of its four segment bytes (30_encoding.md R46). -/
theorem decode_ledSetPacket (x0 x1 x2 x3 : Byte) :
    decode (.outboundPacket (ledSetPacket config x0 x1 x2 x3)) = .ok (.ledSet x0 x1 x2 x3) :=
  decode_encode (i := .ledSet x0 x1 x2 x3) rfl

/-- Settles O49: the packet is the frame of LED_SET, and `Encode` makes one of four `SegByte`s. -/
theorem ledSetPacketIsSixBytes : Obligations.LedSetPacketIsSixBytes :=
  ⟨fun s x0 x1 x2 x3 => ⟨decode_ledSetPacket x0 x1 x2 x3, exec_eq_transition _ s⟩,
    fun _ => ⟨_, _, _, _, decode_ledSetPacket _ _ _ _⟩⟩

end Sys2Proof.Machine

/-! The statements of the family of 40_display_encoding_rom.md: the contents of the ROM, and the
ROM read presented by itself. -/

namespace Sys2Proof.Machine

/-! ### The contents of the ROM -/

section RomContents
variable (c : Config)

/-- Every 4-bit address is in range (20_memory.md R23). -/
theorem toNat_lt_segRom_length (d : Nibble) : d.toNat < c.segRom.toList.length := by
  rw [Vector.length_toList]
  exact d.isLt

/-- `MemRead` gives the table's entry at the address (20_memory.md R23). -/
theorem segRom_getElem?_toNat (d : Nibble) :
    c.segRom.toList[d.toNat]? = some (memRead c d) := by
  rw [List.getElem?_eq_getElem (toNat_lt_segRom_length c d), Vector.getElem_toList]
  rfl

theorem memRead_mem_segRom (d : Nibble) : memRead c d ∈ c.segRom.toList :=
  List.mem_of_getElem? (segRom_getElem?_toNat c d)

/-- With a table of distinct entries the address can be told from the entry read. -/
theorem memRead_injective (hc : c.segRom.toList.Nodup) : Function.Injective (memRead c) := by
  intro d e h
  refine BitVec.eq_of_toNat_eq ((List.getElem?_inj (toNat_lt_segRom_length c d) hc).1 ?_)
  rw [segRom_getElem?_toNat, segRom_getElem?_toNat, h]

end RomContents

/-- The sixteen patterns of 40_display_encoding_rom.md R53, address 0 first. -/
theorem config_segRom_toList : config.segRom.toList =
    [0xE7, 0x06, 0xCB, 0x8F, 0x2E, 0xAD, 0xED, 0x86,
      0xEF, 0xAF, 0xEE, 0x6D, 0xE1, 0x4F, 0xE9, 0xE8] := rfl

theorem config_segRom_nodup : config.segRom.toList.Nodup := by decide

theorem blank_notMem_config_segRom : (0x00 : Byte) ∉ config.segRom.toList := by decide

/-- Settles O39: a ROM read gives the entry of the table at its address, and the sixteen patterns
are distinct and none is blank. -/
theorem romHoldsTheTable : Obligations.RomHoldsTheTable := by
  refine ⟨fun d => ?table, fun _ _ h => memRead_injective config config_segRom_nodup h,
    fun d => ?notBlank⟩
  case table =>
    rw [← config_segRom_toList]
    exact segRom_getElem?_toNat config d
  case notBlank =>
    exact ne_of_mem_of_not_mem (memRead_mem_segRom config d) blank_notMem_config_segRom

/-! ### The ROM read by itself -/

/-- SEGLOOKUP replaces the reply and nothing else (40_display_encoding_rom.md R54). -/
theorem transition_segLookup (c : Config) (d : Nibble) (s : State) :
    transition c (.segLookup d) s = { s with reply := .rom (memRead c d) } := rfl

/-- Settles O40: a ROM read is the frame of SEGLOOKUP (`decode_encode`), and SEGLOOKUP completes
with its transition. -/
theorem segLookupReadsTheRom : Obligations.SegLookupReadsTheRom := by
  intro s d
  refine ⟨decode_encode (i := .segLookup d) rfl, ?_⟩
  rw [exec_eq_transition, transition_segLookup, memRead]

end Sys2Proof.Machine

/-! The statements of the family of 41_command_encoder.md: undefined bits, the byte of one position,
`Encode`. -/

namespace Sys2Proof.Machine

/-! ### Undefined bits are masked off -/

/-- `BuildAndSend` masks its argument itself (41_command_encoder.md R57, R58). -/
@[simp] theorem State.buildAndSend_maskDisplay (c : Config) (v : Word) (s : State) :
    s.buildAndSend c (maskDisplay v) = s.buildAndSend c v := by
  rw [State.buildAndSend, maskDisplay_idem, State.buildAndSend]

/-- SET_DISPLAY reads the defined bits of its argument only. -/
@[simp] theorem setDisplayOp_maskDisplay (c : Config) (v : Word) (s : State) :
    setDisplayOp c (maskDisplay v) s = setDisplayOp c v s := by
  simp only [setDisplayOp, State.gatedBuildAndSend, State.buildAndSend_maskDisplay]

/-- Settles O35: the value 0x0F0FFFFF masks with is `displayMask`; `Encode`, `BuildAndSend` and
SET_DISPLAY do not tell a value from its masked value, and a SET_DISPLAY always answers `OK`. -/
theorem undefinedDisplayBitsNeverMatter : Obligations.UndefinedDisplayBitsNeverMatter := by
  refine ⟨fun c v => (encodeDisplay_maskDisplay c v).symm, fun c v s => ?stored,
    fun v dst s => ⟨_, exec_eq_transition _ s, rfl, ?outcome⟩⟩
  case stored =>
    rw [State.buildAndSend_eq]
    rfl
  case outcome =>
    rw [exec_eq_transition]
    exact congrArg Host.Outcome.next (setDisplayOp_maskDisplay config v s)

/-! ### The byte of one position -/

section Position
variable (c : Config) {dv : Word} {i : Fin 4}

/-- The entry a position's digit addresses, the digit given as nibble i of the word
(20_memory.md R23, 30_encoding.md R40). -/
theorem memRead_digit_eq {a : Fin 16} (ha : a.val = dv.toNat / 16 ^ i.val % 16) :
    memRead c (digit dv i) = c.segRom[a] := by
  have haddr : a = (digit dv i).toFin := Fin.ext (ha.trans (digit_toNat dv i).symm)
  subst haddr
  rfl

/-- Without the decimal point an active position is the entry of its digit
(41_command_encoder.md R56). -/
theorem segByte_active_plain (ha : active dv i = true) (hdp : dp dv i = false) :
    segByte c dv i = memRead c (digit dv i) := by
  simp [segByte_active c ha, hdp]

/-- With the decimal point an active position is that entry with bit 4 set
(41_command_encoder.md R56). -/
theorem segByte_active_dp (ha : active dv i = true) (hdp : dp dv i = true) :
    segByte c dv i = memRead c (digit dv i) ||| dpBit := by
  simp [segByte_active c ha, hdp]

variable {c} (hc : c.RomHasNoDp)
include hc

/-- 00_scope.md R9 through the ROM read: no address gives an entry with the decimal point's bit. -/
theorem memRead_and_dpBit (d : Nibble) : memRead c d &&& dpBit = 0 := hc d.toFin

/-- On an entry without the decimal point's bit, setting the bit is adding it. -/
theorem memRead_or_dpBit (d : Nibble) : memRead c d ||| dpBit = memRead c d + dpBit :=
  (BitVec.add_eq_or_of_and_eq_zero _ _ (memRead_and_dpBit hc d)).symm

/-- An entry without the decimal point's bit is not changed by clearing it. -/
theorem memRead_and_not_dpBit (d : Nibble) : memRead c d &&& ~~~dpBit = memRead c d := by
  have hsplit : memRead c d &&& (dpBit ||| ~~~dpBit) = memRead c d := BitVec.and_allOnes
  rw [BitVec.and_or_distrib_left, memRead_and_dpBit hc] at hsplit
  exact BitVec.zero_or.symm.trans hsplit

/-- The glyph of an active position can be read off its byte: clear the decimal point's bit. -/
theorem segByte_and_not_dpBit (ha : active dv i = true) :
    segByte c dv i &&& ~~~dpBit = memRead c (digit dv i) := by
  cases hdp : dp dv i
  · rw [segByte_active_plain c ha hdp, memRead_and_not_dpBit hc]
  · rw [segByte_active_dp c ha hdp, BitVec.and_or_distrib_right, memRead_and_not_dpBit hc,
      BitVec.and_not_self]
    exact BitVec.or_zero

end Position

/-- No entry of the hardware's table is blank. -/
theorem memRead_config_ne_zero (d : Nibble) : memRead config d ≠ 0x00 :=
  ne_of_mem_of_not_mem (memRead_mem_segRom config d) blank_notMem_config_segRom

/-- Settles O36: the three cases of `SegByte`, with the digit's entry found by `memRead_digit_eq`;
on this hardware 0x00 and 0x10 would be the bytes of a blank glyph, and no entry is blank. -/
theorem segByteFollowsFields : Obligations.SegByteFollowsFields := by
  refine ⟨fun c hc dv i a ha => ⟨segByte_inactive c, fun hact hdp => ?plain,
    fun hact hdp => ⟨?orBit, ?addBit⟩⟩, fun dv i hact => ?glyph, by decide⟩
  case plain => rw [segByte_active_plain c hact hdp, memRead_digit_eq c ha]
  case orBit =>
    rw [segByte_active_dp c hact hdp, memRead_digit_eq c ha]
    rfl
  case addBit =>
    rw [segByte_active_dp c hact hdp, memRead_or_dpBit hc, memRead_digit_eq c ha]
    rfl
  case glyph =>
    have hglyph : segByte config dv i &&& ~~~dpBit ≠ 0 := by
      rw [segByte_and_not_dpBit config_romHasNoDp hact]
      exact memRead_config_ne_zero _
    have hne : ∀ b : Byte, b &&& ~~~dpBit = 0 → segByte config dv i ≠ b := by
      rintro b hb rfl
      exact hglyph hb
    exact ⟨hne 0x00 rfl, hne 0x10 rfl⟩

/-! ### What `Encode` reads -/

/-- Two words have one digit at a position exactly when the nibble's four bits agree
(30_encoding.md R40). -/
theorem digit_eq_iff {v w : Word} {i : Fin 4} : digit v i = digit w i ↔
    ∀ j : Fin 4, v.getLsbD (4 * i.val + j.val) = w.getLsbD (4 * i.val + j.val) := by
  simp only [digit, BitVec.eq_of_getElem_eq_iff, BitVec.getElem_extractLsb', Fin.forall_iff]

/-- `SegByte` reads the active bit of its position, and at an active position the digit and the
decimal point (41_command_encoder.md R56). -/
theorem segByte_congr (c : Config) {v w : Word} {i : Fin 4} (hact : active v i = active w i)
    (hvis : active v i = true → dp v i = dp w i ∧ digit v i = digit w i) :
    segByte c v i = segByte c w i := by
  cases hv : active v i
  · rw [segByte_inactive c hv, segByte_inactive c (hact.symm.trans hv)]
  · obtain ⟨hdp, hdigit⟩ := hvis hv
    rw [segByte_active c hv, segByte_active c (hact.symm.trans hv), hdp, hdigit]

/-- `Encode` reads a DisplayValue through the four `SegByte`s only (41_command_encoder.md R55). -/
theorem encodeDisplay_congr (c : Config) {v w : Word}
    (h : ∀ i : Fin 4, segByte c v i = segByte c w i) : encodeDisplay c v = encodeDisplay c w := by
  simp only [encodeDisplay, h]

/-- Every position of the blank value is inactive. -/
theorem segByte_zero (c : Config) (i : Fin 4) : segByte c 0 i = 0 :=
  segByte_inactive c BitVec.getLsbD_zero

/-- Settles O37: `Encode` is its four `SegByte`s, and each of them reads only what is rendered
(`segByte_congr`). -/
theorem encodeReadsVisibleFieldsOnly : Obligations.EncodeReadsVisibleFieldsOnly := by
  refine ⟨fun c dv => rfl, fun c => ?blank, by decide, fun c v w hact hvis => ?visible⟩
  case blank => simp only [encodeDisplay, ledSetPacket, segByte_zero]
  case visible =>
    refine encodeDisplay_congr c fun i => segByte_congr c (hact i) fun hi => ?_
    obtain ⟨hdp, hbits⟩ := hvis i hi
    exact ⟨hdp, digit_eq_iff.2 hbits⟩

end Sys2Proof.Machine

/-! The statements of the family of 42_flow_control_gate.md: the gate's transition table, what opens
a closed gate, the count of LED-set packets, and the SET_DISPLAYs the gate drops. -/

namespace Sys2Proof.Machine

/-! ### The gate's transition table -/

/-- `ack_pending` after an operation is the table's (42_flow_control_gate.md R62). -/
theorem transition_ackPending (c : Config) (i : Instr) (s : State) :
    (transition c i s).dev.ackPending = (gateTable i s.dev.ackPending).1 := by
  cases i with
  | setDisplay v _ =>
    refine (State.gatedBuildAndSend_ackPending c v s).trans ?_
    cases s.dev.ackPending <;> rfl
  | reset _ _ =>
    refine (State.gatedBuildAndSend_ackPending c _ (s.transmit (initBytes c))).trans ?_
    cases s.dev.ackPending <;> rfl
  | _ => rfl

/-- An event other than `RST` appends to `tx`, as many bytes as the table has
(42_flow_control_gate.md R62). -/
theorem transition_tx_append (c : Config) {i : Instr} (s : State) (hi : i.isEvent = true)
    (hrst : i.isRst = false) :
    ∃ bytes, (transition c i s).tx = s.tx ++ bytes ∧
      bytes.length = (gateTable i s.dev.ackPending).2 := by
  cases i with
  | initSeq | ledSet | segLookup => cases hi
  | rst => cases hrst
  | init _ _ => exact ⟨initBytes c, rfl, rfl⟩
  | setDisplay v _ =>
    rw [transition]
    cases h : s.dev.ackPending
    · exact ⟨encodeDisplay c v, by rw [setDisplayOp_open c v h], rfl⟩
    · exact ⟨[], by rw [setDisplayOp_closed c v h, State.respond_tx, List.append_nil], rfl⟩
  | reset _ _ =>
    rw [transition]
    cases h : s.dev.ackPending
    · exact ⟨initBytes c ++ encodeDisplay c s.dev.lastDisplay,
        by rw [resetOp_open c h, List.append_assoc], rfl⟩
    · exact ⟨initBytes c, by rw [resetOp_closed c h]; rfl, rfl⟩
  | _ => exact ⟨[], (List.append_nil _).symm, rfl⟩

theorem transition_tx_of_isRst (c : Config) {i : Instr} (s : State) (hrst : i.isRst = true) :
    (transition c i s).tx = [] := by
  cases i with
  | rst => rfl
  | _ => cases hrst

/-- The rows of the table that take a closed gate to an open one. -/
theorem gateTable_opens_closed {i : Instr} (h : (gateTable i true).1 = false) :
    i = .rst ∨ ∃ d1 d2, i = .ack d1 d2 := by
  cases i with
  | rst => exact .inl rfl
  | ack d1 d2 => exact .inr ⟨d1, d2, rfl⟩
  | _ => cases h

/-- The rows of the table with an LED-set packet lead from an open gate to a closed one. -/
theorem gateTable_six_le {i : Instr} {pending : Bool} (h : 6 ≤ (gateTable i pending).2) :
    pending = false ∧ (gateTable i pending).1 = true := by
  cases i with
  | setDisplay _ _ | reset _ _ =>
    cases pending
    · exact ⟨rfl, rfl⟩
    · exact absurd h (by simp [gateTable])
  | _ => exact absurd h (by simp [gateTable])

/-- An operation that opens a closed gate is `RST` or an ACK. -/
theorem rst_or_ack_of_opens {c : Config} {i : Instr} {s : State} (hs : s.dev.ackPending = true)
    (ht : (transition c i s).dev.ackPending = false) : i = .rst ∨ ∃ d1 d2, i = .ack d1 d2 := by
  rw [transition_ackPending, hs] at ht
  exact gateTable_opens_closed ht

/-! ### LED-set packets and ACK packets -/

/-- An event that sends an LED-set packet finds the gate open and leaves it closed: it is no `RST`,
which empties `tx`, and the table has no other such row. -/
theorem gate_of_sends_ledSet {c : Config} {i : Instr} {s : State} (hi : i.isEvent = true)
    (hsent : s.tx.length + 6 ≤ (transition c i s).tx.length) :
    s.dev.ackPending = false ∧ (transition c i s).dev.ackPending = true := by
  cases hrst : i.isRst
  · obtain ⟨bytes, htx, hlen⟩ := transition_tx_append c s hi hrst
    rw [htx, List.length_append, hlen] at hsent
    rw [transition_ackPending]
    exact gateTable_six_le (Nat.add_le_add_iff_left.1 hsent)
  · rw [transition_tx_of_isRst c s hrst, List.length_nil] at hsent
    omega

/-- How many LED-set packets the gate lets through before the next ACK: the last term of the bound
in `Obligations.LedSetsAtMostOneMoreThanAcks`. -/
def State.gateCredit (s : State) : Nat := if s.dev.ackPending then 0 else 1

theorem State.gateCredit_open {s : State} (h : s.dev.ackPending = false) : s.gateCredit = 1 := by
  simp [gateCredit, h]

theorem State.gateCredit_closed {s : State} (h : s.dev.ackPending = true) : s.gateCredit = 0 := by
  simp [gateCredit, h]

/-- Without `RST` only an ACK adds to the credit (42_flow_control_gate.md R62). -/
theorem gateCredit_transition_le (c : Config) {i : Instr} (s : State) (hrst : i.isRst = false) :
    (transition c i s).gateCredit ≤ s.gateCredit + if i.isAck then 1 else 0 := by
  cases ht : (transition c i s).dev.ackPending with
  | true => simp [State.gateCredit_closed ht]
  | false =>
    rw [State.gateCredit_open ht]
    cases hs : s.dev.ackPending with
    | false => simp [State.gateCredit_open hs]
    | true =>
      obtain rfl | ⟨d1, d2, rfl⟩ := rst_or_ack_of_opens hs ht
      · cases hrst
      · simp [Instr.isAck]

/-- Over one event, what is sent and the credit left are paid by the credit before and the ACK. -/
theorem ledSet_add_gateCredit_le (c : Config) {i : Instr} (s : State) (hi : i.isEvent = true)
    (hrst : i.isRst = false) :
    (if s.tx.length + 6 ≤ (transition c i s).tx.length then 1 else 0) +
      (transition c i s).gateCredit ≤ s.gateCredit + if i.isAck then 1 else 0 := by
  by_cases hsent : s.tx.length + 6 ≤ (transition c i s).tx.length
  · obtain ⟨hopen, hclosed⟩ := gate_of_sends_ledSet hi hsent
    rw [if_pos hsent, State.gateCredit_open hopen, State.gateCredit_closed hclosed]
    exact Nat.le_add_right 1 _
  · rw [if_neg hsent, Nat.zero_add]
    exact gateCredit_transition_le c s hrst

/-- Settles O17: the table gives the single event; over a run the credit is a potential
(`ledSet_add_gateCredit_le`), by induction on the events. -/
theorem ledSetsAtMostOneMoreThanAcks : Obligations.LedSetsAtMostOneMoreThanAcks := by
  refine ⟨fun c i s => gate_of_sends_ledSet, fun c is => ?_⟩
  induction is with
  | nil => exact fun s _ => Nat.zero_le _
  | cons i is ih =>
    intro s hall
    obtain ⟨⟨hi, hrst⟩, his⟩ := List.forall_mem_cons.1 hall
    have hstep := ledSet_add_gateCredit_le c s hi hrst
    have hrest := ih (transition c i s) his
    rw [← State.gateCredit] at hrest ⊢
    rw [ledSetsSent, List.countP_cons]
    omega

/-! ### What opens a closed gate, and the table -/

/-- Settles O14: a step that changes the gate carried out an operation (`step_next_cases`); if it
opened the gate that is `RST` or an ACK, whose only frame is the reset input or a packet with
`OP_ACK`. -/
theorem onlyAckOrRstOpensClosedGate : Obligations.OnlyAckOrRstOpensClosedGate := by
  intro s t h hs ht
  obtain ⟨-, rfl⟩ | ⟨inp, rest, i, hin, hd, rfl⟩ := step_next_cases h
  · cases hs.symm.trans ht
  · obtain ⟨rfl, -⟩ := encodeOfDecodeGivesBackFrame config inp i hd
    obtain rfl | ⟨d1, d2, rfl⟩ := rst_or_ack_of_opens (s := { s with inputs := rest }) hs ht
    · exact ⟨rest, .inl hin⟩
    · exact ⟨rest, .inr ⟨d1, d2, hin⟩⟩

/-- Settles O15: every operation completes with its transition, which follows the table; an ACK
opens the gate, and at an open gate a SET_DISPLAY sends its packet. -/
theorem gateTransitionTable : Obligations.GateTransitionTable := by
  refine ⟨fun i s hi => ⟨_, exec_eq_transition i s, transition_ackPending config i s,
    transition_tx_of_isRst config s, transition_tx_append config s hi⟩, fun s d1 d2 v d => ?_⟩
  refine ⟨_, _, exec_eq_transition _ s, rfl, exec_eq_transition _ _, ?_⟩
  rw [transition, setDisplayOp_open config v rfl]

/-! ### SET_DISPLAY at an open and at a closed gate -/

/-- A dropped SET_DISPLAY replaces the reply and nothing else (42_flow_control_gate.md R60). -/
theorem exec_setDisplay_closed (v : Word) (dst : Bool) {s : State} (h : s.dev.ackPending = true) :
    exec (.setDisplay v dst) s = .next { s with reply := .host ⟨.ok, none⟩ } := by
  rw [exec_eq_transition, transition, setDisplayOp_closed config v h]
  rfl

/-- A SET_DISPLAY leaves the gate closed, whether sent or dropped. -/
@[simp] theorem transition_setDisplay_ackPending (c : Config) (v : Word) (dst : Bool) (s : State) :
    (transition c (.setDisplay v dst) s).dev.ackPending = true :=
  State.gatedBuildAndSend_ackPending c v s

/-- A second SET_DISPLAY, of any value, changes nothing at all: it has the first one's answer. -/
theorem transition_setDisplay_setDisplay (c : Config) (v w : Word) (dst dst' : Bool) (s : State) :
    transition c (.setDisplay w dst') (transition c (.setDisplay v dst) s) =
      transition c (.setDisplay v dst) s :=
  setDisplayOp_closed c w (transition_setDisplay_ackPending c v dst s)

/-- Settles O26: the two branches of the gate, each as one record. -/
theorem setDisplayGoesThroughGate : Obligations.SetDisplayGoesThroughGate := by
  refine fun s v dst => ⟨rfl, fun hopen => ?_, exec_setDisplay_closed v dst⟩
  rw [exec_eq_transition, transition, setDisplayOp_open config v hopen, ← encodeDisplay_maskDisplay]
  rfl

/-- Settles O27: at a closed gate only the reply changes, so an ACK sends nothing and the RESET
packet after it replays the old value; after a SET_DISPLAY a second one changes nothing. -/
theorem droppedDisplayLeavesNoTrace : Obligations.DroppedDisplayLeavesNoTrace := by
  refine ⟨fun s v dst d1 d2 hclosed => ⟨exec_setDisplay_closed v dst hclosed, ?later⟩,
    fun s v w dst dst' hopen => ?second⟩
  case later =>
    exact ⟨_, _, exec_eq_transition _ _, rfl, exec_eq_transition _ _,
      congrArg State.tx (resetOp_open config rfl)⟩
  case second =>
    refine ⟨_, _, exec_eq_transition _ s, exec_eq_transition _ _, rfl, rfl, ?_, ?_, ?_⟩
    · rw [transition, setDisplayOp_open config v hopen]
    all_goals rw [transition_setDisplay_setDisplay]

/-- Settles O55: what follows a dropped SET_DISPLAY does not read the reply, all that it changed
(`runFor_dev_tx_congr`); after a SET_DISPLAY a second one changes nothing. -/
theorem droppedDisplayIsNeverSeenAgain : Obligations.DroppedDisplayIsNeverSeenAgain := by
  refine ⟨fun s v dst hclosed => ?dropped, fun s v w dst dst' _ => ?second⟩
  case dropped =>
    exact ⟨_, ⟨.ok, none⟩, exec_setDisplay_closed v dst hclosed, rfl, rfl, rfl, rfl,
      fun is _ => runFor_dev_tx_congr config is rfl rfl⟩
  case second =>
    refine ⟨_, _, ⟨.ok, none⟩, exec_eq_transition _ s,
      transition_setDisplay_ackPending config v dst s, exec_eq_transition _ _, rfl, rfl, ?_, ?_⟩
    all_goals rw [transition_setDisplay_setDisplay]

end Sys2Proof.Machine

/-! The statements of the family of 43_packet_decoder.md: the dispatcher, its four arms, and the
replay of `last_display` by the RESET arm. -/

namespace Sys2Proof.Machine

/-! ### The dispatcher -/

/-- No arm of the decoder gives a host response (43_packet_decoder.md R63). -/
theorem transition_reply_of_isPacket (c : Config) {i : Instr} (s : State)
    (hi : i.isPacket = true) : (transition c i s).reply = .none := by
  cases i with
  | ack | biocEvent | reset | rxUnrecognised => rfl
  | _ => cases hi

/-- Of the arms only the RESET arm sends (43_packet_decoder.md R63). -/
theorem transition_tx_of_isPacket (c : Config) {i : Instr} (s : State) (hi : i.isPacket = true)
    (hinit : i.sendsInitBytes = false) : (transition c i s).tx = s.tx := by
  cases i with
  | ack | biocEvent | rxUnrecognised => rfl
  | reset => cases hinit
  | _ => cases hi

@[simp] theorem decodeInboundPacket_isPacket (c : Config) (op d1 d2 : Byte) :
    (decodeInboundPacket c op d1 d2).isPacket = true := by
  unfold decodeInboundPacket
  split_ifs <;> rfl

/-- Only `OP_RESET` selects the arm that sends (43_packet_decoder.md R63, R66). -/
theorem decodeInboundPacket_sendsInitBytes {c : Config} {op : Byte} (hop : op ≠ c.opReset)
    (d1 d2 : Byte) : (decodeInboundPacket c op d1 d2).sendsInitBytes = false := by
  unfold decodeInboundPacket
  rw [if_neg hop]
  split_ifs <;> rfl

/-- The arm an opcode selects, the tests in the order of 43_packet_decoder.md R63. -/
theorem exec_decodeInboundPacket (op d1 d2 : Byte) (s : State) :
    exec (decodeInboundPacket config op d1 d2) s =
      if op = config.opAck then exec (.ack d1 d2) s
      else if op = config.opBiocEvent then exec (.biocEvent d1 d2) s
      else if op = config.opReset then exec (.reset d1 d2) s
      else .next { s with reply := .none } := by
  unfold decodeInboundPacket
  split_ifs <;> rfl

/-- Settles O41: the step carries out the operation the packet decodes to, one of the four arms. -/
theorem dispatcherSelectsOneArm : Obligations.DispatcherSelectsOneArm := by
  intro s op d1 d2 rest hs
  have hpacket := decodeInboundPacket_isPacket config op d1 d2
  refine ⟨_, step_decoded hs rfl, transition_reply_of_isPacket config _ hpacket,
    transition_inputs config _ _, fun hop => ?tx, ?arm⟩
  case tx =>
    exact transition_tx_of_isPacket config _ hpacket
      (decodeInboundPacket_sendsInitBytes hop d1 d2)
  case arm =>
    rw [stepCarriesOutDecodedFrame s _ rest _ hs rfl, exec_decodeInboundPacket]

/-! ### ACK, and the packets without an arm -/

/-- Settles O42: an ACK is the frame of its operation (`decode_encode`), whose transition writes the
flag alone. -/
theorem ackOnlyClearsTheFlag : Obligations.AckOnlyClearsTheFlag :=
  fun s d1 d2 => ⟨decode_encode (i := .ack d1 d2) rfl, exec_eq_transition _ s⟩

/-- Settles O47: an opcode that fails the three tests selects the unrecognised packet, whose
transition writes the reply alone. -/
theorem unrecognisedPacketDoesNothing : Obligations.UnrecognisedPacketDoesNothing :=
  fun s _ d1 d2 hAck hBioc hReset =>
    ⟨congrArg Except.ok (decodeInboundPacket_otherOp d1 d2 hAck hBioc hReset),
      exec_eq_transition _ s⟩

/-! ### BIOC_EVENT -/

/-- The hardware's `Remap` as the formula of 43_packet_decoder.md R65 (D11), bit by bit: each shift
brings one raw bit of `d2` to its place in the mask. -/
theorem remap_config (d1 d2 : Byte) :
    remap config d1 d2 =
      (d1 &&& 0x0F) ||| ((d2 &&& 0x01) <<< 4) ||| ((d2 &&& 0x04) <<< 3) |||
        ((d2 &&& 0x02) <<< 5) ||| ((d2 &&& 0x08) <<< 4) := by
  refine remap_eq_iff.2 fun k => ?_
  fin_cases k <;> simp [config, defaultBtnSrc, rawBit]

/-- Settles O43: the packet is the frame of BIOC_EVENT, whose transition writes the `Remap` of its
bytes, and mask bit k is the raw bit `BTN_SRC[k]`, a bit of the byte it names. -/
theorem biocEventOverwritesTheMask : Obligations.BiocEventOverwritesTheMask := by
  refine ⟨fun s d1 d2 => ⟨decode_encode (i := .biocEvent d1 d2) rfl, ?exec⟩,
    fun c d1 d2 k => ⟨fun hbyte => ?fromD1, fun hbyte => ?fromD2⟩⟩
  case exec =>
    rw [← remap_config]
    exact exec_eq_transition _ s
  case fromD1 => rw [remap_getLsbD, rawBit_eq_getLsbD, hbyte, if_pos rfl]
  case fromD2 => rw [remap_getLsbD, rawBit_eq_getLsbD, hbyte, if_neg (by decide)]

/-! ### The RESET packet -/

/-- Settles O46: the two branches of the gate in the RESET arm (`resetOp_open`, `resetOp_closed`); a
masked `last_display` is stored as it was. -/
theorem resetPacketReplaysThroughGate : Obligations.ResetPacketReplaysThroughGate := by
  refine fun s d1 d2 hmasked => ⟨decode_encode (i := .reset d1 d2) rfl, fun hopen => ?_,
    fun hclosed => ?_⟩
  · rw [exec_eq_transition, transition, resetOp_open config hopen, maskDisplay_of_masked hmasked]
    rfl
  · exact ⟨_, _, exec_eq_transition _ s, resetOp_closed config hclosed, exec_eq_transition _ _, rfl⟩

/-- A SET_DISPLAY that passes the gate sends its packet (42_flow_control_gate.md R59). -/
theorem transition_setDisplay_tx_open (c : Config) (v : Word) (dst : Bool) {s : State}
    (hopen : s.dev.ackPending = false) :
    (transition c (.setDisplay v dst) s).tx = s.tx ++ encodeDisplay c v := by
  rw [transition, setDisplayOp_open c v hopen]

/-- Operations that do not replace the display leave what a sent SET_DISPLAY stored, its masked
value (41_command_encoder.md R58, 10_state.md R16). -/
theorem runFor_setDisplay_lastDisplay (c : Config) (v : Word) (dst : Bool) (is : List Instr)
    {s : State} (hopen : s.dev.ackPending = false)
    (hkeep : keepsDisplay c is (transition c (.setDisplay v dst) s) = true) :
    (runFor c (.setDisplay v dst :: is) s).dev.lastDisplay = maskDisplay v := by
  have hmasked : (transition c (.setDisplay v dst) s).DisplayMasked :=
    transition_displayMasked_of_replaces c (by rw [Instr.replacesDisplay, hopen]; rfl)
  rw [runFor_cons, runFor_lastDisplay c is hkeep hmasked, transition, setDisplayOp_open c v hopen]

/-- Settles O18: the SET_DISPLAY sends `Encode(v)` and stores `v` masked, which is kept up to the
RESET packet and has the same encoding. -/
theorem replayIsByteIdentical : Obligations.ReplayIsByteIdentical := by
  intro c v dst is s d1 d2 hopen hkeep hopen'
  refine ⟨encodeDisplay c v, transition_setDisplay_tx_open c v dst hopen,
    encodeDisplay_length c v, ?_⟩
  rw [transition, resetOp_open c hopen', runFor_setDisplay_lastDisplay c v dst is hopen hkeep,
    encodeDisplay_maskDisplay]

end Sys2Proof.Machine

/-! The statements of the family of 44_device_init.md: INIT, what it forgets, and which events send
the init sequence. -/

namespace Sys2Proof.Machine

/-! ### Which events send the init sequence -/

/-- INIT and the RESET packet send the init sequence first, at an open and at a closed gate
(44_device_init.md R72); what a RESET packet sends more is the replay. -/
theorem transition_tx_of_sendsInitBytes (c : Config) {i : Instr} (s : State)
    (hi : i.sendsInitBytes = true) :
    ∃ more, (transition c i s).tx = s.tx ++ initBytes c ++ more := by
  cases i with
  | init _ _ => exact ⟨[], (List.append_nil _).symm⟩
  | reset _ _ =>
    rw [transition]
    cases h : s.dev.ackPending
    · exact ⟨encodeDisplay c s.dev.lastDisplay, by rw [resetOp_open c h]⟩
    · exact ⟨[], by rw [resetOp_closed c h, List.append_nil]; rfl⟩
  | _ => cases hi

/-- A RESET packet that sends the init sequence only found the gate closed, since a replay is six
bytes more (43_packet_decoder.md R66): it writes no element. -/
theorem resetOp_dev_of_initBytes_only (c : Config) {s : State}
    (htx : (resetOp c s).tx = s.tx ++ initBytes c) : (resetOp c s).dev = s.dev := by
  cases h : s.dev.ackPending
  · have hreplay : encodeDisplay c s.dev.lastDisplay = [] := by
      rwa [resetOp_open c h, List.append_right_eq_self] at htx
    cases hreplay
  · rw [resetOp_closed c h, State.answer_dev, State.transmit_dev]

/-- An event that sends no init sequence and does not restart the trace sends nothing, or the packet
of the DisplayValue of a SET_DISPLAY that passes the gate (41_command_encoder.md R58). -/
theorem transition_tx_of_not_sendsInitBytes (c : Config) {i : Instr} (s : State)
    (hi : i.isEvent = true) (hinit : i.sendsInitBytes = false) (hrst : i.isRst = false) :
    (transition c i s).tx = s.tx ∨ ∃ dv, (transition c i s).tx = s.tx ++ encodeDisplay c dv := by
  cases i with
  | initSeq | ledSet | segLookup => cases hi
  | init | reset => cases hinit
  | rst => cases hrst
  | setDisplay v dst =>
    cases h : s.dev.ackPending
    · exact .inr ⟨v, transition_setDisplay_tx_open c v dst h⟩
    · exact .inl (by rw [transition, setDisplayOp_closed c v h, State.respond_tx])
  | _ => exact .inl rfl

/-- Settles O48: every operation completes with its transition; the lemmas above say what it appends
to `tx`, by the operation and the gate. -/
theorem initSequenceSentByInitAndResetOnly : Obligations.InitSequenceSentByInitAndResetOnly := by
  refine ⟨exec_eq_transition .initSeq, fun i s hi => ?initBytesFirst,
    fun s arg dst => ⟨_, exec_eq_transition _ s, rfl⟩,
    fun s d1 d2 => ⟨_, exec_eq_transition _ s, resetOp_dev_of_initBytes_only config⟩,
    fun i s hi hinit => ⟨_, exec_eq_transition i s, transition_tx_of_isRst config s,
      transition_tx_of_not_sendsInitBytes config s hi hinit⟩⟩
  case initBytesFirst =>
    obtain ⟨more, htx⟩ := transition_tx_of_sendsInitBytes config s hi
    exact ⟨_, more, exec_eq_transition i s, htx⟩

/-! ### INIT -/

/-- Settles O24: request number 0 selects INIT, whose transition is one record (`initOp_eq`). -/
theorem initSendsAndOverwritesAll : Obligations.InitSendsAndOverwritesAll := by
  refine fun s arg dst => ⟨rfl, ?_⟩
  rw [exec_eq_transition, transition, initOp_eq]
  rfl

/-- The packet of the blank value has every position blank (10_state.md R17). -/
theorem encodeDisplay_zero (c : Config) : encodeDisplay c 0 = ledSetPacket c 0 0 0 0 := by
  simp only [encodeDisplay, segByte_zero]

/-- Settles O25: INIT writes all three elements with values that do not depend on the state
(`initOp_eq`), and leaves the gate closed; an ACK opens it, and the RESET packet then replays the
blank value. -/
theorem initForgetsWhatWasBefore : Obligations.InitForgetsWhatWasBefore := by
  intro s s' arg arg' dst dst' d1 d2
  refine ⟨_, _, exec_eq_transition _ s, exec_eq_transition _ s', rfl,
    ⟨_, exec_eq_transition _ _, rfl, rfl⟩, ⟨_, exec_eq_transition _ _, rfl⟩,
    ⟨_, exec_eq_transition _ _, ?closed⟩, _, _, exec_eq_transition _ _, exec_eq_transition _ _,
    ?opened⟩
  case closed => exact congrArg State.tx (resetOp_closed config rfl)
  case opened =>
    refine (congrArg State.tx (resetOp_open config rfl)).trans ?_
    exact congrArg (_ ++ ·) (encodeDisplay_zero config)

end Sys2Proof.Machine

/-! The statements of the family of 45_query_and_reserved_ops.md: GET_BUTTONS, the reserved
operations, and which operation raises which condition. -/

namespace Sys2Proof.Machine

/-! ### GET_BUTTONS -/

/-- The low byte of an extended mask is the mask (45_query_and_reserved_ops.md R73). -/
@[simp] theorem zext32_low_byte (m : Byte) : (zext32 m).extractLsb' 0 8 = m := by
  rw [zext32, BitVec.extractLsb'_setWidth_of_le (by decide), BitVec.extractLsb'_eq_self]

/-- Above the low byte an extended mask has no bit set (45_query_and_reserved_ops.md R73). -/
@[simp] theorem zext32_upper_bits (m : Byte) : (zext32 m).extractLsb' 8 24 = 0 := by
  rw [zext32, BitVec.extractLsb'_setWidth_of_le (by decide)]
  ext k hk
  simp

/-- Settles O28: the answer is the extended mask, and the mask after a run is the one written last
(`buttonMaskIsLastWritten`). -/
theorem getButtonsAnswersSnapshot : Obligations.GetButtonsAnswersSnapshot := by
  refine fun is s₀ arg => ⟨decode_encode (i := .getButtons arg) rfl,
    zext32 (runFor config is s₀).dev.buttonMask, ?_, zext32_upper_bits _, exec_eq_transition _ _⟩
  rw [zext32_low_byte, buttonMaskIsLastWritten]

/-! ### The operations that raise a condition, and the reserved ones -/

/-- The status of a host response tells its operation: `EINVAL` is GET_BUTTONS's without a
destination, `EUNSUPPORTED` the unrecognised operation's (45_query_and_reserved_ops.md R74, R76;
60_exceptions.md R78, R79). -/
theorem transition_response_cases {c : Config} {i : Instr} {s : State} {r : Response}
    (h : (transition c i s).reply = .host r) :
    r.status = .ok ∨
      (r.status = .einval ∧ ∃ arg, i = .getButtonsNodst arg) ∨
      (r.status = .eunsupported ∧ ∃ op arg dst, i = .hostUnrecognised op arg dst) := by
  cases i with
  | ack | biocEvent | reset | rxUnrecognised | initSeq | ledSet | segLookup | rst => cases h
  | getButtonsNodst arg =>
    cases h
    exact .inr (.inl ⟨rfl, arg, rfl⟩)
  | hostUnrecognised op arg dst =>
    cases h
    exact .inr (.inr ⟨rfl, op, arg, dst, rfl⟩)
  | init | setDisplay | getButtons | rsvd0 | rsvd1 | rsvd2 =>
    cases h
    exact .inl rfl

/-- Settles O31: the numbers from 0x06 on select the unrecognised operation, which raises the
condition; the other statuses are not `EUNSUPPORTED` (`transition_response_cases`). -/
theorem unrecognisedRequestIsTheOnlyUnsupported :
    Obligations.UnrecognisedRequestIsTheOnlyUnsupported := by
  refine ⟨fun s op arg dst hop => ⟨congrArg Except.ok (decodeHostRequest_of_six_le hop arg dst),
    exec_eq_transition _ s⟩, fun i s t r hexec hreply hstatus => ?_⟩
  cases (exec_eq_transition i s).symm.trans hexec
  obtain hok | ⟨hinval, -⟩ | ⟨-, hi⟩ := transition_response_cases hreply
  · cases hok.symm.trans hstatus
  · cases hinval.symm.trans hstatus
  · exact hi

/-- Settles O30: the transition of each of the three writes the reply alone. -/
theorem reservedOperationsOnlyAnswerOk : Obligations.ReservedOperationsOnlyAnswerOk :=
  fun s _ _ => ⟨exec_eq_transition _ s, exec_eq_transition _ s, exec_eq_transition _ s⟩

end Sys2Proof.Machine

/-! The statements of the family of 60_exceptions.md: no event stops the machine, what a response
tells, simultaneous events, and what raising a condition leaves unchanged. -/

namespace Sys2Proof.Machine

/-! ### No event stops the machine -/

/-- Settles O8, by induction on the steps: a step on events answers a next state with only events to
come (`step_onlyEvents`), from which the rest of the run goes on. -/
theorem eventsNeverStopTheMachine : Obligations.EventsNeverStopTheMachine := by
  intro k
  induction k with
  | zero => exact fun s hs => ⟨s, rfl, hs⟩
  | succ k ih =>
    intro s hs
    obtain ⟨t, hstep, ht⟩ := step_onlyEvents hs
    rw [run_succ Sys2Proof.core k hstep]
    exact ih t ht

/-! ### What a response tells -/

/-- What an operation answers depends on the state through `button_mask` alone
(60_exceptions.md R86): only GET_BUTTONS reads the state for its answer. -/
theorem transition_reply_congr (c : Config) (i : Instr) {s s' : State}
    (h : s.dev.buttonMask = s'.dev.buttonMask) :
    (transition c i s).reply = (transition c i s').reply := by
  cases i with
  | getButtons _ => exact congrArg (fun m => Reply.host ⟨.ok, some (zext32 m)⟩) h
  | _ => rfl

/-- The mask an operation leaves depends on the state through the mask alone. -/
theorem transition_buttonMask_congr (c : Config) (i : Instr) {s s' : State}
    (h : s.dev.buttonMask = s'.dev.buttonMask) :
    (transition c i s).dev.buttonMask = (transition c i s').dev.buttonMask := by
  rw [transition_buttonMask, transition_buttonMask, h]

/-- Settles O20, by induction on the operations: the first one answers the same from both states and
leaves the same mask in them. -/
theorem repliesTellButtonMaskOnly : Obligations.RepliesTellButtonMaskOnly := by
  intro c is
  induction is with
  | nil => exact fun s s' h => ⟨rfl, h⟩
  | cons i is ih =>
    intro s s' h
    obtain ⟨hreplies, hmask⟩ := ih _ _ (transition_buttonMask_congr c i h)
    exact ⟨congrArg₂ List.cons (transition_reply_congr c i h) hreplies, hmask⟩

/-! ### Simultaneous events -/

/-- A query writes no element and sends nothing (45_query_and_reserved_ops.md R73 to R76). -/
theorem transition_of_isQuery (c : Config) {i : Instr} (s : State) (hi : i.isQuery = true) :
    (transition c i s).dev = s.dev ∧ (transition c i s).tx = s.tx := by
  cases i with
  | getButtons | getButtonsNodst | rsvd0 | rsvd1 | rsvd2 | hostUnrecognised => exact ⟨rfl, rfl⟩
  | _ => cases hi

/-- A query before or after any operation: the elements and `tx` are those of the operation alone. -/
theorem transition_comm_of_isQuery (c : Config) {q : Instr} (i : Instr) (s : State)
    (hq : q.isQuery = true) :
    (transition c i (transition c q s)).dev = (transition c q (transition c i s)).dev ∧
      (transition c i (transition c q s)).tx = (transition c q (transition c i s)).tx := by
  obtain ⟨hdev, htx⟩ := transition_of_isQuery c s hq
  obtain ⟨hdev', htx'⟩ := transition_of_isQuery c (transition c i s) hq
  rw [hdev', htx']
  exact transition_dev_tx_congr c i hdev htx

/-- A SET_DISPLAY that the gate drops sends nothing (42_flow_control_gate.md R60). -/
theorem transition_setDisplay_tx_closed (c : Config) (v : Word) (dst : Bool) {s : State}
    (hclosed : s.dev.ackPending = true) : (transition c (.setDisplay v dst) s).tx = s.tx := by
  rw [transition, setDisplayOp_closed c v hclosed, State.respond_tx]

/-- Settles O21: a query commutes with every operation; at a closed gate a SET_DISPLAY is dropped,
at the gate an ACK has opened it is sent. -/
theorem simultaneousEventsInEitherOrder : Obligations.SimultaneousEventsInEitherOrder := by
  refine ⟨fun c q p s hq _ => transition_comm_of_isQuery c p s hq,
    fun c v dst d1 d2 s hclosed => ⟨?dropped, rfl, ?sent, ?closedAgain⟩⟩
  case dropped => exact transition_setDisplay_tx_closed c v dst hclosed
  case sent => exact transition_setDisplay_tx_open c v dst rfl
  case closedAgain => exact transition_setDisplay_ackPending c v dst _

/-! ### Raising a condition -/

/-- Settles O29: without a destination request 0x02 selects the operation that raises the condition;
the other statuses are not `EINVAL` (`transition_response_cases`). -/
theorem noDestinationIsTheOnlyEinval : Obligations.NoDestinationIsTheOnlyEinval := by
  refine ⟨fun s arg => ⟨decode_encode (i := .getButtonsNodst arg) rfl, exec_eq_transition _ s⟩,
    fun i s t r hexec hreply hstatus => ?_⟩
  cases (exec_eq_transition i s).symm.trans hexec
  obtain hok | ⟨-, hi⟩ | ⟨hunsupported, -⟩ := transition_response_cases hreply
  · cases hok.symm.trans hstatus
  · exact hi
  · cases hunsupported.symm.trans hstatus

/-- What `State.raise` leaves of the state, and its response (60_exceptions.md R82). -/
theorem State.raise_frame {condition : Status} {s : State} {r : Response}
    (h : (s.raise condition).reply = .host r) :
    (s.raise condition).dev = s.dev ∧ (s.raise condition).tx = s.tx ∧
      (s.raise condition).inputs = s.inputs ∧ r.data = none := by
  cases h
  exact ⟨rfl, rfl, rfl, rfl⟩

/-- Settles O33: a status other than `OK` comes from one of the two operations that raise a
condition (`transition_response_cases`), and both are `State.raise`. -/
theorem raisedConditionChangesNothing : Obligations.RaisedConditionChangesNothing := by
  intro i s t r hexec hreply hstatus
  cases (exec_eq_transition i s).symm.trans hexec
  obtain hok | ⟨-, arg, rfl⟩ | ⟨-, op, arg, dst, rfl⟩ := transition_response_cases hreply
  · exact absurd hok hstatus
  · exact State.raise_frame (condition := .einval) hreply
  · exact State.raise_frame (condition := .eunsupported) hreply

end Sys2Proof.Machine

/-! The statements of the family of 70_reset_and_hazards.md: a lost ACK, acknowledgments that are
not matched to commands, and what `RST` leaves of a state. -/

namespace Sys2Proof.Machine

/-! ### A lost ACK -/

/-- Without an ACK and without `RST` a closed gate stays closed (70_reset_and_hazards.md R95). -/
theorem transition_keeps_closed (c : Config) {i : Instr} {s : State} (hack : i.isAck = false)
    (hrst : i.isRst = false) (hclosed : s.dev.ackPending = true) :
    (transition c i s).dev.ackPending = true := by
  by_contra hopen
  obtain rfl | ⟨d1, d2, rfl⟩ := rst_or_ack_of_opens hclosed (Bool.eq_false_of_not_eq_true hopen)
  · cases hrst
  · cases hack

/-- All that an event other than `RST` sends at a closed gate is the init sequence of an INIT or a
RESET packet (42_flow_control_gate.md R60; 43_packet_decoder.md R69, D17). -/
theorem transition_tx_closed (c : Config) {i : Instr} {s : State} (hi : i.isEvent = true)
    (hrst : i.isRst = false) (hclosed : s.dev.ackPending = true) :
    (transition c i s).tx = s.tx ++ if i.sendsInitBytes then initBytes c else [] := by
  cases i with
  | initSeq | ledSet | segLookup => cases hi
  | rst => cases hrst
  | init _ _ => rfl
  | reset _ _ => exact congrArg State.tx (resetOp_closed c hclosed)
  | setDisplay v dst =>
    exact (transition_setDisplay_tx_closed c v dst hclosed).trans (List.append_nil _).symm
  | _ => exact (List.append_nil _).symm

/-- A run without an ACK and without `RST` leaves a closed gate closed. -/
theorem runFor_keeps_closed (c : Config) (is : List Instr) {s : State}
    (his : ∀ i ∈ is, i.isAck = false ∧ i.isRst = false) (hclosed : s.dev.ackPending = true) :
    (runFor c is s).dev.ackPending = true := by
  refine runFor_keeps c (fun t => t.dev.ackPending = true) is (fun i hi t ht => ?_) s hclosed
  obtain ⟨hack, hrst⟩ := his i hi
  exact transition_keeps_closed c hack hrst ht

/-- What such a run sends, by induction on the events: the gate is still closed after the first. -/
theorem runFor_tx_closed (c : Config) (is : List Instr) {s : State}
    (his : ∀ i ∈ is, i.isEvent = true ∧ i.isAck = false ∧ i.isRst = false)
    (hclosed : s.dev.ackPending = true) :
    (runFor c is s).tx =
      s.tx ++ (List.replicate (is.countP Instr.sendsInitBytes) (initBytes c)).flatten := by
  induction is generalizing s with
  | nil => exact (List.append_nil _).symm
  | cons i is ih =>
    obtain ⟨⟨hi, hack, hrst⟩, his⟩ := List.forall_mem_cons.1 his
    rw [runFor_cons, ih his (transition_keeps_closed c hack hrst hclosed),
      transition_tx_closed c hi hrst hclosed, List.append_assoc]
    cases hinit : i.sendsInitBytes
    · simp [hinit]
    · simp [hinit, List.replicate_succ]

/-- Settles O16: the run leaves the gate closed (`runFor_keeps_closed`) and sends init
sequences only (`runFor_tx_closed`); so the gate drops a SET_DISPLAY after it, and an ACK opens it. -/
theorem lostAckStallsTheDisplay : Obligations.LostAckStallsTheDisplay := by
  intro c is s his hclosed
  have hend := runFor_keeps_closed c is (fun i hi => (his i hi).2) hclosed
  exact ⟨hend, runFor_tx_closed c is his hclosed, fun v _ => setDisplayOp_closed c v hend,
    fun _ _ => rfl⟩

/-! ### Acknowledgments are not matched to commands -/

/-- After an ACK, whatever it acknowledges, a SET_DISPLAY is sent (43_packet_decoder.md R64,
70_reset_and_hazards.md R96). -/
theorem transition_ack_setDisplay_tx (c : Config) (v : Word) (dst : Bool) (d1 d2 : Byte)
    (s : State) :
    (transition c (.setDisplay v dst) (transition c (.ack d1 d2) s)).tx =
      s.tx ++ encodeDisplay c v :=
  transition_setDisplay_tx_open c v dst rfl

/-- Settles O22: INIT sends its sequence, and each ACK with the SET_DISPLAY after it one packet. -/
theorem acksAreNotMatchedToCommands : Obligations.AcksAreNotMatchedToCommands := by
  intro c v w d arg d1 d2 s
  simp only [runFor_cons, runFor_nil, transition_ack_setDisplay_tx]
  rfl

/-! ### `RST` -/

/-- INIT, an ACK and a RESET packet send the init sequence twice and the blank packet, whatever was
displayed before (44_device_init.md R71, 70_reset_and_hazards.md R93). -/
theorem runFor_init_ack_reset_tx (c : Config) (arg : Word) (dst : Bool) (d1 d2 : Byte)
    (s : State) :
    (runFor c [.init arg dst, .ack d1 d2, .reset d1 d2] s).tx =
      s.tx ++ initBytes c ++ initBytes c ++ encodeDisplay c 0 :=
  congrArg State.tx (resetOp_open c rfl)

/-- Settles O23: `RST` empties `tx` and opens the gate for the SET_DISPLAY; what it displayed does
not matter to the three events after it (`runFor_init_ack_reset_tx`). -/
theorem displayBeforeInitIsForgotten : Obligations.DisplayBeforeInitIsForgotten := by
  intro c v d arg d1 d2 s
  rw [runFor_cons, runFor_cons, runFor_init_ack_reset_tx, transition_setDisplay_tx_open c v d rfl]
  rfl

/-- Settles O50: `RST` completes with the state of `State.hardwareReset`. -/
theorem rstRestoresResetValues : Obligations.RstRestoresResetValues :=
  fun s => ⟨rfl, _, exec_eq_transition .rst s, State.hardwareReset_dev config s,
    State.hardwareReset_tx config s, rfl, rfl, transition_inputs config .rst s⟩

/-- `RST` keeps the events still to come and nothing else (70_reset_and_hazards.md R92). -/
theorem transition_rst_congr (c : Config) {s s' : State} (h : s.inputs = s'.inputs) :
    transition c .rst s = transition c .rst s' :=
  congrArg (State.mk (DeviceState.resetFor c) [] .none) h

/-- Settles O51: the first step carries out `RST`, after which the two states are one
(`transition_rst_congr`). -/
theorem nothingSurvivesRst : Obligations.NothingSurvivesRst := by
  intro s s' rest k hs hs'
  have hrst : transition config .rst { s with inputs := rest } =
      transition config .rst { s' with inputs := rest } := transition_rst_congr config rfl
  rw [run_succ Sys2Proof.core k (step_decoded hs rfl),
    run_succ Sys2Proof.core k (step_decoded hs' rfl), hrst]

end Sys2Proof.Machine
